-- ==== Sys2Proof/Word.lean ====
section
/-! DEFINITION. Sys2Proof/Word.lean: the widths the block's registers and command words have. -/

namespace Sys2Proof

/-- An 8-bit unsigned value: a colour byte (R57) or the serializer's shift register (R36). -/
abbrev Byte := BitVec 8

/-- The colour register's 24 bits, green in the top byte (R30). -/
abbrev Colour := BitVec 24

/-- A command word (R56). -/
abbrev CmdWord := BitVec 26

end Sys2Proof
end

