-- ==== Sys2Proof/Syntax.lean ====
section
/-! DEFINITION. Sys2Proof/Syntax.lean: the command words as syntax (30_encoding.md section 1, opcode_table.json), and the
assembler's lines and pseudo-commands as data (R63, R64; their text is read in Machine/Assembler.lean). -/

namespace Sys2Proof

/-- One constructor per row of the opcode table (R58). The `ignored` bits [23:0] of END and of the reserved words are
kept as an operand, so that no bit of a word is lost in decoding; no meaning reads them (R60, R61; log entry 11). -/
inductive Instr where
  /-- op 0b00, COLOR g, r, b (R59) -/
  | color (g r b : Byte)
  /-- op 0b01, END (R60) -/
  | endFrame (ignored : BitVec 24)
  /-- op 0b10, reserved (R61) -/
  | rsvd2 (ignored : BitVec 24)
  /-- op 0b11, reserved (R61) -/
  | rsvd3 (ignored : BitVec 24)
  deriving DecidableEq, Repr

/-- R63: one assembler command with its operands as the numbers a programmer writes. -/
inductive AsmOp where
  | color (g r b : Nat)
  | endFrame
  /-- `.word`: the only way to write a reserved word, or an END with nonzero low bits -/
  | word (w : Nat)
  deriving DecidableEq, Repr

/-- R63 and R64: a line of a test program. A core line may carry the earliest cycle `@n` in which the upstream offers
its word; a pseudo-command carries none (log entry 12). -/
inductive AsmLine where
  | core (notBefore : Option Nat) (op : AsmOp)
  /-- caller order (R64) -/
  | rgb (r g b : Nat)
  /-- a whole frame, each colour as (green, red, blue) (R64) -/
  | frame (colours : List (Nat × Nat × Nat))
  /-- the empty frame (R64) -/
  | empty
  deriving DecidableEq, Repr

end Sys2Proof
end

