-- ==== Sys2Proof/WellFormed.lean ====
section
/-! DEFINITION. Sys2Proof/WellFormed.lean: what the assembler admits (R63: operands 0 to 255, raw words below 2^26), and
well-formedness of a decoded command. Legality of a configuration (R11) is in Machine/Timing.lean. -/

namespace Sys2Proof

/-- R59, R60, R61, R62: every value of every field is legal, and the field's type is exactly its width; so every term
of Instr is well formed. Written per constructor, so that a new command cannot slip past. -/
def Instr.wellFormed : Instr → Bool
  | .color _ _ _ => true
  | .endFrame _ => true
  | .rsvd2 _ => true
  | .rsvd3 _ => true

/-- R63: an operand byte is 0 to 255. -/
def AsmOp.byteOk (n : Nat) : Bool := n < 256

/-- R63 -/
def AsmOp.wellFormed : AsmOp → Bool
  | .color g r b => byteOk g && byteOk r && byteOk b
  | .endFrame => true
  | .word w => w < 67108864

/-- R63, R64 -/
def AsmLine.wellFormed : AsmLine → Bool
  | .core _ op => op.wellFormed
  | .rgb r g b => AsmOp.byteOk r && AsmOp.byteOk g && AsmOp.byteOk b
  | .frame cs => cs.all fun c => AsmOp.byteOk c.1 && AsmOp.byteOk c.2.1 && AsmOp.byteOk c.2.2
  | .empty => true

end Sys2Proof
end

