-- ==== Sys2Proof/Decode.lean ====
section
/-! DEFINITION. Sys2Proof/Decode.lean: decoding of a command word (R56 to R62), the encoder, and the assembler's words
(R63, R64). -/

namespace Sys2Proof

/-- R57: op = word[25:24]. -/
def opField (w : CmdWord) : BitVec 2 := w.extractLsb' 24 2

/-- R57: word[23:0], the colour of a COLOR word and the ignored bits of the others. -/
def dataField (w : CmdWord) : BitVec 24 := w.extractLsb' 0 24

/-- R57, R59: word[23:16]. -/
def greenField (w : CmdWord) : Byte := w.extractLsb' 16 8

/-- R57, R59: word[15:8]. -/
def redField (w : CmdWord) : Byte := w.extractLsb' 8 8

/-- R57, R59: word[7:0]. -/
def blueField (w : CmdWord) : Byte := w.extractLsb' 0 8

/-- R58: the command is told from `op` alone; every word is exactly one command (R62). -/
def decode (w : CmdWord) : Instr :=
  match (opField w).toNat with
  | 0 => .color (greenField w) (redField w) (blueField w)
  | 1 => .endFrame (dataField w)
  | 2 => .rsvd2 (dataField w)
  | _ => .rsvd3 (dataField w)

/-- Why a number is no command word. -/
inductive DecodeError where
  /-- the number needs more than the 26 bits of `in_data_i` (R56, R63); safe: the hardware has no such word -/
  | wordTooWide
  deriving DecidableEq, Repr

/-- Decoding of any number, as the assembler's raw words are given (R63); total, refusing by name (log entry 10). -/
def decodeNat (w : Nat) : Except DecodeError Instr :=
  if w < 67108864 then .ok (decode (BitVec.ofNat 26 w)) else .error .wordTooWide

/-- The table numbers bit 0 as the word's least significant bit, as R57 does; a command is one word (R56), so nothing
is laid out in bytes and `nbits` is not needed. -/
def decodeTableWord (_nbits w : Nat) : Option Instr :=
  match decodeNat w with
  | .ok i => some i
  | .error _ => none

/-- R58: the `op` of each command. -/
def Instr.op : Instr → BitVec 2
  | .color _ _ _ => 0b00#2
  | .endFrame _ => 0b01#2
  | .rsvd2 _ => 0b10#2
  | .rsvd3 _ => 0b11#2

/-- R57: bits [23:0] of each command. -/
def Instr.data : Instr → BitVec 24
  | .color g r b => g ++ r ++ b
  | .endFrame x => x
  | .rsvd2 x => x
  | .rsvd3 x => x

/-- R57: the word of a command, `op` on top. -/
def encode (i : Instr) : CmdWord := i.op ++ i.data

/-- R63: the word of a core line, refused where the assembler refuses it. -/
def AsmOp.assemble (op : AsmOp) : Option CmdWord :=
  if op.wellFormed then
    match op with
    | .color g r b => some (BitVec.ofNat 26 (g * 65536 + r * 256 + b))
    | .endFrame => some 0x1000000#26
    | .word w => some (BitVec.ofNat 26 w)
  else none

/-- R64: what a line expands to, in order. -/
def AsmLine.expand : AsmLine → List (Option Nat × AsmOp)
  | .core n op => [(n, op)]
  | .rgb r g b => [(none, .color g r b)]
  | .frame cs => cs.map (fun c => (none, AsmOp.color c.1 c.2.1 c.2.2)) ++ [(none, .endFrame)]
  | .empty => [(none, .endFrame)]

end Sys2Proof
end

