-- ==== Sys2Proof/Config.lean ====
section
/-! DEFINITION. Sys2Proof/Config.lean: the elaboration parameters (00_scope.md R5 to R8, R13, R14).
The block has no free value: no rule leaves a result open. -/

namespace Sys2Proof

/-- R6: which timing table is active. -/
inductive TimingProfile where
  | standard
  | slow
  deriving DecidableEq, Repr

/-- R13: what a pad failure does. -/
inductive OnPinError where
  | ignore
  | abort
  deriving DecidableEq, Repr

/-- The parameters fixed when the block is built. The spec hands them to the step as arguments (section 3 of
00_scope.md); State carries them in its field `cfg` (DESIGN CHOICE, log entry 1). -/
structure Config where
  /-- R5 -/
  fClkHz : Nat
  /-- R6 -/
  profile : TimingProfile
  /-- R13 -/
  onPinError : OnPinError
  /-- R7 -/
  t1hNs : Nat
  /-- R7 -/
  t1lNs : Nat
  /-- R7; not used under SLOW (R10) -/
  t0hNs : Nat
  /-- R7 -/
  t0lNs : Nat
  /-- R8 -/
  trstNs : Nat
  deriving DecidableEq, Repr

/-- R7 and R8: the source's durations, at a clock, a profile and a policy of choice. -/
def Config.withDefaults (fClkHz : Nat) (profile : TimingProfile) (onPinError : OnPinError) : Config :=
  { fClkHz, profile, onPinError, t1hNs := 600, t1lNs := 600, t0hNs := 300, t0lNs := 800, trstNs := 300000 }

/-- R14 -/
def Config.ref10 : Config := .withDefaults 10000000 .standard .ignore

/-- R14 -/
def Config.ref10S : Config := .withDefaults 10000000 .slow .ignore

/-- R14 -/
def Config.ref10A : Config := .withDefaults 10000000 .standard .abort

/-- R14 -/
def Config.ref16 : Config := .withDefaults 16000000 .standard .ignore

end Sys2Proof
end

