-- ==== Sys2Proof/Machine/State.lean ====
section
/-! DEFINITION. Sys2Proof/Machine/State.lean: every register of 10_state.md section 2, the inputs of the step, and the
state after reset (R38). -/

namespace Sys2Proof.Machine

/-- R27: the frame writer's phase; three values, so that 0b11 cannot occur (log entry 6). -/
inductive FwState where
  | idle
  | send
  | latch
  deriving DecidableEq, Repr

/-- R31: which byte of the colour is on the wire; three values, so that 3 cannot occur (log entry 6). -/
inductive ByteIdx where
  /-- 0 -/
  | green
  /-- 1 -/
  | red
  /-- 2 -/
  | blue
  deriving DecidableEq, Repr

/-- R37: the phase within a bit. -/
inductive BitPhase where
  /-- 0 -/
  | low
  /-- 1 -/
  | high
  deriving DecidableEq, Repr

/-- The input values of one cycle (10_state.md section 1), sampled at the edge that ends it (R15). -/
structure Inputs where
  /-- R18 -/
  rst : Bool
  /-- R19 -/
  inValid : Bool
  /-- R19 -/
  inData : CmdWord
  /-- R21 -/
  pinErr : Bool
  deriving DecidableEq, Repr

/-- A cycle in which nothing is asserted. -/
def Inputs.quiet : Inputs := { rst := false, inValid := false, inData := 0#26, pinErr := false }

/-- The register state during one cycle (10_state.md section 2), with the two fields the step needs beside it: the
elaboration parameters and the inputs of this and the coming cycles (log entries 1 and 2). -/
@[ext]
structure State where
  /-- the elaboration parameters; no step changes them -/
  cfg : Config
  /-- the inputs, the current cycle's first; past the end every cycle is quiet -/
  env : List Inputs
  /-- R27 -/
  fwState : FwState
  /-- R28 -/
  inFrame : Bool
  /-- R29 -/
  abort : Bool
  /-- R30 -/
  col : Colour
  /-- R31 -/
  byteIdx : ByteIdx
  /-- R32; WR bits (R12; log entry 7) -/
  latCnt : Nat
  /-- R33 -/
  bufValid : Bool
  /-- R33 -/
  bufWord : CmdWord
  /-- R34 -/
  doneQ : Bool
  /-- R34 -/
  ferrQ : Bool
  /-- R35 -/
  badCmdQ : Bool
  /-- R36 -/
  bsByte : Byte
  /-- R36; 4 bits (log entry 7) -/
  bsLeft : Nat
  /-- R37 -/
  btPhase : BitPhase
  /-- R37; WB bits (R12; log entry 7) -/
  btCnt : Nat
  /-- R37 -/
  pinQ : Bool
  deriving DecidableEq, Repr

/-- Reasons to stop with a fault: NONE. "None stops the block" (R97); the step is "a total, deterministic function"
(R93). The two events the block detects are recorded in registers (R98, R99; log entry 14). -/
inductive Fault where
  deriving DecidableEq, Repr

/-- Reasons for which the model has no step. -/
inductive Refusal where
  /-- `exec`'s arm of an instruction that has no meaning yet; raised by no arm of this model; safe -/
  | notModelled (mnemonic : String)
  /-- `step`, on a configuration that R11 refuses at elaboration ("the model has no step for it"); safe (log entry 8) -/
  | illegalConfiguration
  deriving DecidableEq, Repr

/-- R38: the register values after a reset edge, for a block of configuration `c` with the inputs `env` to come. -/
def State.resetWith (c : Config) (env : List Inputs) : State :=
  { cfg := c, env := env, fwState := .idle, inFrame := false, abort := false, col := 0#24, byteIdx := .green,
    latCnt := 0, bufValid := false, bufWord := 0#26, doneQ := false, ferrQ := false, badCmdQ := false,
    bsByte := 0#8, bsLeft := 0, btPhase := .low, btCnt := 0, pinQ := false }

/-- The machine right after reset (R38), built as REF10 (R14; DESIGN CHOICE, log entry 1), nothing offered yet
(DESIGN CHOICE, log entry 2). -/
def State.reset : State := State.resetWith Config.ref10 []

end Sys2Proof.Machine
end

