-- ==== Sys2Proof/Machine/Ports.lean ====
section
/-! DEFINITION. Sys2Proof/Machine/Ports.lean: the block's ports (10_state.md section 1): the inputs of the current cycle,
the outputs as functions of the registers (R20, R22 to R26), acceptance (R81) and the sampling of `pin_err_i` (R21). -/

namespace Sys2Proof.Machine

/-- R15: the inputs present during the current cycle; quiet once the list is used up (log entry 2). -/
def State.pins (s : State) : Inputs := s.env.headD Inputs.quiet

/-- R20: `in_ready_o`. -/
def State.inReadyO (s : State) : Bool := !s.bufValid && !s.pins.rst

/-- R22: `dout_o`. -/
def State.doutO (s : State) : Bool := s.pinQ

/-- R23: `busy_o`. -/
def State.busyO (s : State) : Bool := decide (s.fwState ≠ .idle) || s.inFrame || s.bufValid

/-- R24: `done_o`. -/
def State.doneO (s : State) : Bool := s.doneQ

/-- R25: `frame_err_o`. -/
def State.frameErrO (s : State) : Bool := s.ferrQ

/-- R26: `bad_cmd_o`. -/
def State.badCmdO (s : State) : Bool := s.badCmdQ

/-- R81: `accept`. -/
def State.accepts (s : State) : Bool := s.pins.inValid && s.inReadyO

/-- R21, R92: the pad's report counts at this edge: policy ABORT, in SEND, reported. -/
def State.padFails (s : State) : Bool :=
  decide (s.cfg.onPinError = .abort) && decide (s.fwState = .send) && s.pins.pinErr

/-- R81: the buffer write of an accepting edge. -/
def acceptOffered (s : State) : State :=
  if s.accepts then { s with bufValid := true, bufWord := s.pins.inData } else s

/-- R15: the edge ends the cycle; the next cycle's inputs come to the front. -/
def nextCycle (s : State) : State := { s with env := s.env.tail }

end Sys2Proof.Machine
end

