-- ==== Sys2Proof/Machine/Flags.lean ====
section
/-! DEFINITION. Sys2Proof/Machine/Flags.lean: the status bits `done_q`, `ferr_q`, `bad_cmd_q` (R34, R35, R41). No command
reads one. -/

namespace Sys2Proof.Machine

/-- R91: the default clears. -/
def clearResult (s : State) : State := { s with doneQ := false, ferrQ := false }

/-- R90: the frame's result; the abort state ends here (R104). -/
def reportResult (s : State) : State := { s with doneQ := true, ferrQ := s.abort, abort := false }

/-- R98: BAD_CMD, recorded until reset. -/
def recordBadCmd (s : State) : State := { s with badCmdQ := true }

end Sys2Proof.Machine
end

