-- ==== Sys2Proof/Machine/Operands.lean ====
section
/-! DEFINITION. Sys2Proof/Machine/Operands.lean: a colour's bytes (R59, R83) and the two contexts in which a command is
consumed (R82), with the stage signals that define them (R69, R77). -/

namespace Sys2Proof.Machine

/-- R30, R59: `col` as {G, R, B}, the word's bits [23:0] unchanged. -/
def colourOf (g r b : Byte) : Colour := g ++ r ++ b

/-- R83: `colbyte(i) = col[23 - 8i : 16 - 8i]`. -/
def colByte (c : Colour) : ByteIdx → Byte
  | .green => c.extractLsb' 16 8
  | .red => c.extractLsb' 8 8
  | .blue => c.extractLsb' 0 8

/-- R83: `byte_idx + 1`, of an index at most 1 (blue has no next byte). -/
def ByteIdx.next : ByteIdx → ByteIdx
  | .green => .red
  | .red => .blue
  | .blue => .blue

/-- R69: the bit ends at this edge. The count is compared as R93's `else` does, not below 2 (log entry 5). -/
def State.btFin (s : State) : Bool :=
  decide (s.fwState = .send) && decide (s.btPhase = .low) && decide (s.btCnt < 2) && !s.padFails

/-- R77: the byte ends at this edge. -/
def State.bsDone (s : State) : Bool := s.btFin && decide (s.bsLeft < 2)

/-- R82: the colour ends at this edge. -/
def State.colDone (s : State) : Bool := s.bsDone && decide (s.byteIdx = .blue)

/-- R82: where a buffered word may be consumed. -/
inductive Context where
  /-- context (a): `fw_state = IDLE` -/
  | inIdle
  /-- context (b): `col_done = 1` -/
  | atColourEnd
  deriving DecidableEq, Repr

/-- R82: the context of this edge, if there is one; at a reset edge nothing is consumed (R102 item 1, R110). -/
def State.context (s : State) : Option Context :=
  if s.pins.rst then none
  else if s.fwState = .idle then some .inIdle
  else if s.colDone then some .atColourEnd
  else none

end Sys2Proof.Machine
end

