-- ==== Sys2Proof/Machine/Timing.lean ====
section
/-! DEFINITION. Sys2Proof/Machine/Timing.lean: from nanoseconds to clock cycles (R9, R10), legality (R11), counter widths
(R12), and the phase lengths of a bit (R66). -/

namespace Sys2Proof

/-- R9: `ceil (d * F_CLK_HZ / 10^9)` in exact integers, `(d * F_CLK_HZ + 10^9 - 1) div 10^9`. The sum is written with its
constant first, so that Lean's kernel stops at once on a `d * F_CLK_HZ` that is no numeral. -/
def cyc (fClkHz d : Nat) : Nat := (1000000000 - 1 + d * fClkHz) / 1000000000

/-- R9 -/
def Config.t1hCyc (c : Config) : Nat := cyc c.fClkHz c.t1hNs

/-- R9 -/
def Config.t1lCyc (c : Config) : Nat := cyc c.fClkHz c.t1lNs

/-- R9 under STANDARD; R10 under SLOW. -/
def Config.t0hCyc (c : Config) : Nat :=
  match c.profile with
  | .standard => cyc c.fClkHz c.t0hNs
  | .slow => 1

/-- R9 -/
def Config.t0lCyc (c : Config) : Nat := cyc c.fClkHz c.t0lNs

/-- R9 -/
def Config.trstCyc (c : Config) : Nat := cyc c.fClkHz c.trstNs

/-- R11 -/
def Config.legal (c : Config) : Bool :=
  decide (1 ≤ c.t1hCyc) && decide (1 ≤ c.t1lCyc) && decide (1 ≤ c.t0hCyc) && decide (1 ≤ c.t0lCyc) &&
    decide (1 ≤ c.trstCyc) && decide (c.t0hCyc < c.t1hCyc)

/-- R66: the high time of a bit, `H(b)`. -/
def Config.highCyc (c : Config) (b : Bool) : Nat := if b then c.t1hCyc else c.t0hCyc

/-- R66: the low time of a bit, `L(b)`. -/
def Config.lowCyc (c : Config) (b : Bool) : Nat := if b then c.t1lCyc else c.t0lCyc

/-- R12: the number of binary digits of `n`. -/
def bitLength (n : Nat) : Nat := if n = 0 then 0 else n.log2 + 1

/-- R12: WB. -/
def Config.btWidth (c : Config) : Nat := bitLength (max (max c.t1hCyc c.t1lCyc) (max c.t0hCyc c.t0lCyc))

/-- R12: WR. -/
def Config.latWidth (c : Config) : Nat := bitLength c.trstCyc

end Sys2Proof
end

