-- ==== Sys2Proof/Machine/Ops.lean ====
section
/-! DEFINITION. Sys2Proof/Machine/Ops.lean: the register writes shared by the rules: the bit timer (R67 to R69), the
serializer (R75, R76), the frame writer (R83, R85, R88 to R90), the pad abort (R92) and reset (R110). The block has no
memory (R46). It takes no exception and returns from none (R97, R103, R104); what comes nearest, the pad abort's redirect
and its end, are `padAbort` and `reportResult` (log entry 14). -/

namespace Sys2Proof.Machine

/-- R67: STARTBIT(b). -/
def startBit (b : Bool) (s : State) : State :=
  { s with btPhase := .high, btCnt := s.cfg.highCyc b, pinQ := true }

/-- The decrement of R68 and R69. -/
def countPhase (s : State) : State := { s with btCnt := s.btCnt - 1 }

/-- R68's `else`: the high phase has ended; the low time is that of the bit in progress (R70). -/
def endHigh (s : State) : State :=
  { s with pinQ := false, btPhase := .low, btCnt := s.cfg.lowCyc (s.bsByte.getLsbD 7) }

/-- R75: LOADBYTE(v), its first bit started. -/
def loadByte (v : Byte) (s : State) : State :=
  startBit (v.getLsbD 7) { s with bsByte := v, bsLeft := 8 }

/-- R76: the next bit of the byte; the new bit 7 is the old bit 6. -/
def nextBit (s : State) : State :=
  startBit (s.bsByte.getLsbD 6) { s with bsByte := s.bsByte <<< 1, bsLeft := s.bsLeft - 1 }

/-- R83: the next byte of the colour. -/
def nextByte (s : State) : State :=
  loadByte (colByte s.col s.byteIdx.next) { s with byteIdx := s.byteIdx.next }

/-- R84: the writes both contexts of COLOR share: take the colour, green first. -/
def loadColour (g r b : Byte) (s : State) : State :=
  loadByte g { s with col := colourOf g r b, byteIdx := .green }

/-- R82: consumption empties the buffer. -/
def takeWord (s : State) : State := { s with bufValid := false }

/-- R88, and R86 in context (b): no usable next word; the frame waits in IDLE. -/
def stallFrame (s : State) : State := { s with fwState := .idle }

/-- R85: the frame is closed and its latch period begins. -/
def startLatch (s : State) : State :=
  { s with inFrame := false, fwState := .latch, latCnt := s.cfg.trstCyc }

/-- R89. -/
def countLatch (s : State) : State := { s with latCnt := s.latCnt - 1 }

/-- R90. -/
def endLatch (s : State) : State := reportResult { s with fwState := .idle }

/-- R92, R99, R103: PIN_ABORT; no other register is written. -/
def padAbort (s : State) : State := { s with pinQ := false, fwState := .idle, abort := true }

/-- R18, R110: every register at its reset value (R38), whatever the state was; the configuration is the block's own. -/
def resetRegisters (s : State) : State := State.resetWith s.cfg s.env

/-- R86, R87: what the two reserved words do in a context. -/
def rejectWord (c : Context) (s : State) : State :=
  match c with
  | .inIdle => recordBadCmd (takeWord s)
  | .atColourEnd => stallFrame (recordBadCmd (takeWord s))

/-- R82: a command's effect, in the context this edge gives; at no other edge is a word consumed: it waits (log entry 4). -/
def consumeAs (effect : Context → State → State) (s : State) : State :=
  match s.context with
  | some c => effect c s
  | none => s

/-- An outcome, with the edge's end put after a next state. -/
def mapNext (f : State → State) : Host.Outcome State Fault Refusal → Host.Outcome State Fault Refusal
  | .next s => .next (f s)
  | .fault r => .fault r
  | .refused r => .refused r

end Sys2Proof.Machine
end

