-- ==== Sys2Proof/Machine/FrameWriter.lean ====
section
/-! DEFINITION. Sys2Proof/Machine/FrameWriter.lean: the meaning of each command at the edge that consumes it
(42_frame_writer.md section 2). The context is R82's; outside both contexts the word waits and nothing is written. -/

namespace Sys2Proof.Machine

/-- R84's pseudocode. -/
def colorEffect (g r b : Byte) (c : Context) (s : State) : State :=
  match c with
  | .inIdle =>
    if s.abort then takeWord s
    else { loadColour g r b (takeWord s) with inFrame := true, fwState := .send }
  | .atColourEnd => loadColour g r b (takeWord s)

/-- R85's pseudocode, the same in both contexts. -/
def endEffect (_ : Context) (s : State) : State := startLatch (takeWord s)

/-- COLOR g, r, b (R84). -/
def execColor (g r b : Byte) (s : State) : Host.Outcome State Fault Refusal :=
  .next (consumeAs (colorEffect g r b) s)

/-- END (R85); its bits [23:0] are ignored (R60). -/
def execEnd (_ignored : BitVec 24) (s : State) : Host.Outcome State Fault Refusal :=
  .next (consumeAs endEffect s)

/-- RSVD2 (R86). -/
def execRsvd2 (_ignored : BitVec 24) (s : State) : Host.Outcome State Fault Refusal :=
  .next (consumeAs rejectWord s)

/-- RSVD3 (R87). -/
def execRsvd3 (_ignored : BitVec 24) (s : State) : Host.Outcome State Fault Refusal :=
  .next (consumeAs rejectWord s)

end Sys2Proof.Machine
end

