-- ==== Sys2Proof/Machine/Dispatch.lean ====
section
/-! DEFINITION. Sys2Proof/Machine/Dispatch.lean: the command map (R58): one arm per command. -/

namespace Sys2Proof.Machine

def exec (i : Instr) (s : State) : Host.Outcome State Fault Refusal :=
  match i with
  | .color g r b => Sys2Proof.Machine.execColor g r b s
  | .endFrame ignored => Sys2Proof.Machine.execEnd ignored s
  | .rsvd2 ignored => Sys2Proof.Machine.execRsvd2 ignored s
  | .rsvd3 ignored => Sys2Proof.Machine.execRsvd3 ignored s

end Sys2Proof.Machine
end

