-- ==== Sys2Proof/Machine/Edge.lean ====
section
/-! DEFINITION. Sys2Proof/Machine/Edge.lean: one rising edge (R93): which rule applies, decided from the values before the
edge (R16), and what it writes; and a word placed in the buffer so that the next edge consumes it. -/

namespace Sys2Proof.Machine

/-- The arms of R93's `case fw_state`: exactly one applies at an edge that does not reset. -/
inductive EdgeRule where
  /-- IDLE with an empty buffer: every register holds (R109) -/
  | wait
  /-- R82, context (a) or (b) -/
  | consume
  /-- R92 -/
  | padAbort
  /-- R68, `bt_cnt >= 2`, and R69, `bt_cnt >= 2` -/
  | countPhase
  /-- R68, else -/
  | endHigh
  /-- R76 -/
  | nextBit
  /-- R83 -/
  | nextByte
  /-- R88 -/
  | stall
  /-- R89 -/
  | countLatch
  /-- R90 -/
  | endLatch
  deriving DecidableEq, Repr

/-- R93: the arm of `case fw_state`, the first condition that holds winning in SEND. -/
def State.edgeRule (s : State) : EdgeRule :=
  match s.fwState with
  | .idle => if s.bufValid then .consume else .wait
  | .send =>
    if s.padFails then .padAbort
    else
      match s.btPhase with
      | .high => if 2 ≤ s.btCnt then .countPhase else .endHigh
      | .low =>
        if 2 ≤ s.btCnt then .countPhase
        else if 2 ≤ s.bsLeft then .nextBit
        else if s.byteIdx ≠ .blue then .nextByte
        else if s.bufValid then .consume
        else .stall
  | .latch => if 2 ≤ s.latCnt then .countLatch else .endLatch

/-- What happens at every edge that does not reset, whatever else does (R102 item 2): the default clears (R91) and
acceptance (R81). Neither writes a register that the rule of the edge reads. -/
def openEdge (s : State) : State := acceptOffered (clearResult s)

/-- R93: the arm's writes. A consumed word runs through `exec`. -/
def applyRule (r : EdgeRule) (s : State) : Host.Outcome State Fault Refusal :=
  match r with
  | .wait => .next s
  | .consume => exec (decode s.bufWord) s
  | .padAbort => .next (Sys2Proof.Machine.padAbort s)
  | .countPhase => .next (Sys2Proof.Machine.countPhase s)
  | .endHigh => .next (Sys2Proof.Machine.endHigh s)
  | .nextBit => .next (Sys2Proof.Machine.nextBit s)
  | .nextByte => .next (Sys2Proof.Machine.nextByte s)
  | .stall => .next (stallFrame s)
  | .countLatch => .next (Sys2Proof.Machine.countLatch s)
  | .endLatch => .next (Sys2Proof.Machine.endLatch s)

/-- R93: one rising edge of a legally configured block. Reset overrides everything (R102 item 1). -/
def clockEdge (s : State) : Host.Outcome State Fault Refusal :=
  if s.pins.rst then .next (nextCycle (resetRegisters s))
  else mapNext nextCycle (applyRule s.edgeRule (openEdge s))

/-- The next edge is one that would consume a buffered word (R82). -/
def State.readyToConsume (s : State) : Bool := s.context.isSome

/-- The state brought to the nearest edge that consumes: IDLE, its line low, no reset in the current cycle; unchanged
where the next edge consumes already (log entry 3). -/
def bringToConsume (s : State) : State :=
  if s.readyToConsume then s
  else { s with fwState := .idle, pinQ := false,
                env := { s.pins with rst := false } :: s.env.tail }

/-- `w` in the command buffer, as an accepting edge leaves it (R81), and the next edge one that consumes it. -/
def placeWord (w : CmdWord) (s : State) : State :=
  { bringToConsume s with bufValid := true, bufWord := w }

end Sys2Proof.Machine
end

