-- ==== Sys2Proof/Machine/Step.lean ====
section
/-! DEFINITION. Sys2Proof/Machine/Step.lean: the step of the block: one rising edge of `clk_i` (R15, R93), refused for a
configuration that R11 refuses. -/

namespace Sys2Proof.Machine

/-- R15: `S(n+1) = step(S(n), I(n))`, the inputs I(n) being the front of `env`. R11: an illegal configuration has no step. -/
def step (s : State) : Host.Outcome State Fault Refusal :=
  if s.cfg.legal then clockEdge s else .refused .illegalConfiguration

/-- The word `w` where the next step consumes it: the one-entry command buffer (log entry 3). A command is one 26-bit word
(R56), so `nbits` is not needed. -/
def State.withFetchWord (s : State) (_nbits w : Nat) : State := placeWord (BitVec.ofNat 26 w) s

end Sys2Proof.Machine
end

