-- ==== Sys2Proof/Machine/Assembler.lean ====
section
/-! DEFINITION. Sys2Proof/Machine/Assembler.lean: the text of the assembler (R63, R64): a program as characters, read into
lines. The syntax is test-bench notation, no part of the block. What R63 leaves open of it is in log entry 12. -/

namespace Sys2Proof

/-- What a line is made of, blanks and the comment apart. -/
inductive AsmToken where
  /-- a mnemonic or a number -/
  | name (cs : List Char)
  | comma
  | lpar
  | rpar
  /-- `@` -/
  | offerAt
  deriving DecidableEq, Repr

/-- The name read so far, if there is one. -/
def endName (cur : List Char) : List AsmToken := if cur = [] then [] else [.name cur]

/-- R63: `;` starts a comment. -/
def tokenize : List Char → List Char → List AsmToken
  | [], cur => endName cur
  | c :: cs, cur =>
    if c = ';' then endName cur
    else if c = ' ' ∨ c = '\t' ∨ c = '\r' then endName cur ++ tokenize cs []
    else if c = ',' then endName cur ++ .comma :: tokenize cs []
    else if c = '(' then endName cur ++ .lpar :: tokenize cs []
    else if c = ')' then endName cur ++ .rpar :: tokenize cs []
    else if c = '@' then endName cur ++ .offerAt :: tokenize cs []
    else tokenize cs (cur ++ [c])

/-- The value of a digit, hexadecimal ones included. -/
def digitValue (c : Char) : Option Nat :=
  if 48 ≤ c.toNat ∧ c.toNat ≤ 57 then some (c.toNat - 48)
  else if 65 ≤ c.toNat ∧ c.toNat ≤ 70 then some (c.toNat - 55)
  else if 97 ≤ c.toNat ∧ c.toNat ≤ 102 then some (c.toNat - 87)
  else none

/-- The number that digits of a base write, after those already read. -/
def digitsValue (base : Nat) : List Char → Nat → Option Nat
  | [], n => some n
  | c :: cs, n =>
    match digitValue c with
    | some d => if d < base then digitsValue base cs (n * base + d) else none
    | none => none

/-- A decimal number, of one digit or more. -/
def decimalNumber (cs : List Char) : Option Nat := if cs = [] then none else digitsValue 10 cs 0

/-- R63: an operand of COLOR, decimal or `0x` with two hexadecimal digits; its range is AsmOp.wellFormed's matter. -/
def operandNumber (cs : List Char) : Option Nat :=
  if cs.take 2 = ['0', 'x'] then
    if cs.length = 4 then digitsValue 16 (cs.drop 2) 0 else none
  else decimalNumber cs

/-- R63: a raw word, `0x` with seven hexadecimal digits. -/
def rawNumber (cs : List Char) : Option Nat :=
  if cs.take 2 = ['0', 'x'] ∧ cs.length = 9 then digitsValue 16 (cs.drop 2) 0 else none

/-- Three operands. -/
def operands3 (a b c : List Char) : Option (Nat × Nat × Nat) :=
  match operandNumber a, operandNumber b, operandNumber c with
  | some x, some y, some z => some (x, y, z)
  | _, _, _ => none

/-- R63: `COLOR g, r, b`, `END`, `.word 0xHHHHHHH`. -/
def parseCore : List AsmToken → Option AsmOp
  | [.name m] => if m = ['E', 'N', 'D'] then some .endFrame else none
  | [.name m, .name w] => if m = ['.', 'w', 'o', 'r', 'd'] then (rawNumber w).map AsmOp.word else none
  | [.name m, .name g, .comma, .name r, .comma, .name b] =>
    if m = ['C', 'O', 'L', 'O', 'R'] then (operands3 g r b).map fun p => .color p.1 p.2.1 p.2.2 else none
  | _ => none

/-- R64: the colours of a FRAME, at least one. -/
def parseColours : List AsmToken → Option (List (Nat × Nat × Nat))
  | [.lpar, .name g, .comma, .name r, .comma, .name b, .rpar] => (operands3 g r b).map fun p => [p]
  | .lpar :: .name g :: .comma :: .name r :: .comma :: .name b :: .rpar :: .comma :: rest =>
    match operands3 g r b, parseColours rest with
    | some p, some ps => some (p :: ps)
    | _, _ => none
  | _ => none

/-- R64: a pseudo-command. -/
def parsePseudo : List AsmToken → Option AsmLine
  | [.name m, .name r, .comma, .name g, .comma, .name b] =>
    if m = ['R', 'G', 'B'] then (operands3 r g b).map fun p => .rgb p.1 p.2.1 p.2.2 else none
  | .name m :: rest =>
    if m = ['F', 'R', 'A', 'M', 'E'] then
      if rest = [] then some (.frame []) else (parseColours rest).map AsmLine.frame
    else if m = ['E', 'M', 'P', 'T', 'Y'] ∧ rest = [] then some .empty
    else none
  | _ => none

/-- One line; `some none` for a line with no command on it. -/
def parseLine : List AsmToken → Option (Option AsmLine)
  | [] => some none
  | .offerAt :: .name n :: rest =>
    match decimalNumber n, parseCore rest with
    | some k, some op => some (some (.core (some k) op))
    | _, _ => none
  | ts =>
    match parseCore ts with
    | some op => some (some (.core none op))
    | none => (parsePseudo ts).map some

/-- R63: one command per line. -/
def splitLines : List Char → List Char → List (List Char)
  | [], cur => [cur]
  | c :: cs, cur => if c = '\n' then cur :: splitLines cs [] else splitLines cs (cur ++ [c])

/-- The lines of a program, refused where one is no line. -/
def parseLines : List (List Char) → Option (List AsmLine)
  | [] => some []
  | l :: ls =>
    match parseLine (tokenize l []), parseLines ls with
    | some (some a), some as => some (a :: as)
    | some none, some as => some as
    | _, _ => none

/-- R63, R64: a program's text. -/
def parseProgram (text : List Char) : Option (List AsmLine) := parseLines (splitLines text [])

end Sys2Proof
end

