-- ==== Sys2Proof/Machine/Upstream.lean ====
section
/-! DEFINITION. Sys2Proof/Machine/Upstream.lean: a test bench around the block: the upstream of R63 and of 95_test_vectors.md
section 0, which holds each word of a program until it is accepted. The bench writes the block's inputs cycle by cycle; it is
no part of the block. -/

namespace Sys2Proof.Machine

/-- A word and the earliest cycle in which the upstream offers it (R63's `@n`; 0 without one). -/
structure Offer where
  notBefore : Nat
  word : CmdWord
  deriving DecidableEq, Repr

/-- R63, R64: the offers of a program, refused where the assembler refuses a line. -/
def offersOf : List (Option Nat × AsmOp) → Option (List Offer)
  | [] => some []
  | p :: ps =>
    match p.2.assemble, offersOf ps with
    | some w, some os => some ({ notBefore := p.1.getD 0, word := w } :: os)
    | some _, none => none
    | none, _ => none

/-- R63, R64: a program's lines, expanded and assembled. -/
def assembleProgram (ls : List AsmLine) : Option (List Offer) :=
  if ls.all AsmLine.wellFormed then offersOf (ls.flatMap AsmLine.expand) else none

/-- R63, R64: the offers of a program's text. -/
def assembleText (text : List Char) : Option (List Offer) :=
  match parseProgram text with
  | some ls => assembleProgram ls
  | none => none

/-- The block with its environment: the cycle number, the words still to be accepted, and the cycles in which the pad
reports a failure and in which reset is asserted. -/
structure Bench where
  block : State
  cycle : Nat
  offers : List Offer
  pinErrCycles : List Nat
  rstCycles : List Nat
  deriving DecidableEq, Repr

/-- The inputs of the current cycle: the front word from its earliest cycle on (R63); where no word is offered, `in_data_i`
is not read (R19) and is driven to 0. -/
def Bench.inputs (b : Bench) : Inputs :=
  let rst := b.rstCycles.contains b.cycle
  let pinErr := b.pinErrCycles.contains b.cycle
  match b.offers with
  | [] => { rst := rst, inValid := false, inData := 0#26, pinErr := pinErr }
  | o :: _ =>
    if o.notBefore ≤ b.cycle then { rst := rst, inValid := true, inData := o.word, pinErr := pinErr }
    else { rst := rst, inValid := false, inData := 0#26, pinErr := pinErr }

/-- The block with the current cycle's inputs on its ports. -/
def Bench.driven (b : Bench) : State := { b.block with env := [b.inputs] }

/-- One cycle of the bench: the block steps, and the upstream goes on to its next word when the block accepted this one. -/
def Bench.tick (b : Bench) : Option Bench :=
  match step b.driven with
  | .next t =>
    some { b with
      block := t
      cycle := b.cycle + 1
      offers := if b.driven.accepts then b.offers.tail else b.offers }
  | .fault _ => none
  | .refused _ => none

/-- `n` cycles of the bench. -/
def Bench.run : Nat → Bench → Option Bench
  | 0, b => some b
  | n + 1, b =>
    match b.tick with
    | some b' => Bench.run n b'
    | none => none

/-- The trace of `dout_o` and `done_o` over `n` cycles, the current one first (00_scope.md section 5, Trace). -/
def Bench.trace : Nat → Bench → List (Bool × Bool)
  | 0, _ => []
  | n + 1, b =>
    (b.block.doutO, b.block.doneO) ::
      match b.tick with
      | some b' => Bench.trace n b'
      | none => []

end Sys2Proof.Machine
end

