-- ==== Sys2Proof/Safety.lean ====
section
/-! DEFINITION. Sys2Proof/Safety.lean: the terms in which claims are stated: the invariant of 10_state.md R45, runs and the
line trace, the waveform the rules promise, the words accepted and consumed along a run, and the registers the line
depends on. -/

namespace Sys2Proof.Machine

/-! ## The invariant -/

/-- R45 items 1 to 5 (item 6 is in the types), with what R29, R37, R25 and R96 add. -/
structure BlockInv (s : State) : Prop where
  /-- item 1 -/
  lineHigh : s.pinQ = true → s.fwState = .send ∧ s.btPhase = .high
  /-- R37, R73: during a bit's high pulse the line is high -/
  highLine : s.fwState = .send → s.btPhase = .high → s.pinQ = true
  /-- item 2, the frame writer and the serializer -/
  sending : s.fwState = .send → s.inFrame = true ∧ s.abort = false ∧ 1 ≤ s.bsLeft ∧ s.bsLeft ≤ 8
  /-- item 2, the high phase -/
  highCount : s.fwState = .send → s.btPhase = .high →
    1 ≤ s.btCnt ∧ s.btCnt ≤ s.cfg.highCyc (s.bsByte.getLsbD 7)
  /-- item 2, the low phase -/
  lowCount : s.fwState = .send → s.btPhase = .low →
    1 ≤ s.btCnt ∧ s.btCnt ≤ s.cfg.lowCyc (s.bsByte.getLsbD 7)
  /-- item 3 -/
  latching : s.fwState = .latch → s.inFrame = false ∧ 1 ≤ s.latCnt ∧ s.latCnt ≤ s.cfg.trstCyc ∧ s.pinQ = false
  /-- item 4 -/
  aborting : s.abort = true → s.cfg.onPinError = .abort ∧ s.fwState ≠ .send
  /-- R29: an abort lasts until the end of its frame's latch period -/
  abortOpen : s.abort = true → s.inFrame = true ∨ s.fwState = .latch
  /-- item 5 -/
  errDone : s.ferrQ = true → s.doneQ = true
  /-- R25: no frame fails under IGNORE -/
  errAbort : s.ferrQ = true → s.cfg.onPinError = .abort
  /-- R96: where a frame is reported, no state of it is left -/
  doneIdle : s.doneQ = true → s.fwState = .idle ∧ s.inFrame = false ∧ s.abort = false

/-- R12: the counters fit the widths that the configuration gives them, and `bs_left` its 4 bits. -/
def CountersFit (s : State) : Prop :=
  s.btCnt < 2 ^ s.cfg.btWidth ∧ s.latCnt < 2 ^ s.cfg.latWidth ∧ s.bsLeft < 2 ^ 4

/-! ## One edge, in the rules' own words -/

/-- What every edge without reset does (R91, R81, R15), written out: the result cleared, an offered word taken into an
empty buffer, the next cycle's inputs in front; every other register as before the edge. -/
def edgeBase (s : State) : State :=
  { s with
    env := s.env.tail
    doneQ := false
    ferrQ := false
    bufValid := s.bufValid || s.pins.inValid
    bufWord := if s.pins.inValid = true ∧ s.bufValid = false then s.pins.inData else s.bufWord }

/-- No abort at this edge (R69, R92). -/
def NoPadAbort (s : State) : Prop := s.cfg.onPinError = .ignore ∨ s.pins.pinErr = false

/-- R82, context (a). -/
def InIdle (s : State) : Prop := s.pins.rst = false ∧ s.fwState = .idle

/-- R82, context (b): the last bit of a colour's blue byte ends at this edge; the counts are compared as R93's `else` does. -/
def AtColourEnd (s : State) : Prop :=
  s.pins.rst = false ∧ s.fwState = .send ∧ NoPadAbort s ∧ s.btPhase = .low ∧ s.btCnt < 2 ∧ s.bsLeft < 2 ∧
    s.byteIdx = .blue

/-! ## Runs and traces -/

/-- `n` edges. -/
def run : Nat → State → Host.Outcome State Fault Refusal
  | 0, s => .next s
  | n + 1, s =>
    match step s with
    | .next t => run n t
    | .fault r => .fault r
    | .refused r => .refused r

/-- The level of `dout_o` in the current cycle and the following ones, `n` cycles in all. -/
def lineTrace : Nat → State → List Bool
  | 0, _ => []
  | n + 1, s =>
    s.doutO ::
      match step s with
      | .next t => lineTrace n t
      | .fault _ => []
      | .refused _ => []

/-- No reset is asserted in the next `n` cycles. -/
def NoReset (n : Nat) (s : State) : Prop := ∀ p ∈ s.env.take n, p.rst = false

/-- In the next `n` cycles there is no reset, and no pad failure that the policy reads (the premise of R94). -/
def Undisturbed (n : Nat) (s : State) : Prop :=
  ∀ p ∈ s.env.take n, p.rst = false ∧ (s.cfg.onPinError = .abort → p.pinErr = false)

/-! ## The waveform -/

/-- R73: a bit on the line. -/
def bitWave (c : Config) (b : Bool) : List Bool :=
  List.replicate (c.highCyc b) true ++ List.replicate (c.lowCyc b) false

/-- R73: its length. -/
def bitCycles (c : Config) (b : Bool) : Nat := c.highCyc b + c.lowCyc b

/-- The bits of a value, the most significant first (R47, R79). -/
def msbFirst {w : Nat} (v : BitVec w) : List Bool := (List.range w).map fun i => v.getLsbD (w - 1 - i)

/-- R79: a value's bits on the line, back to back. -/
def wave {w : Nat} (c : Config) (v : BitVec w) : List Bool := (msbFirst v).flatMap (bitWave c)

/-- R79, R80: its length. -/
def waveCycles {w : Nat} (c : Config) (v : BitVec w) : Nat := ((msbFirst v).map (bitCycles c)).sum

/-- R80: the number of one bits. -/
def popCount (v : Byte) : Nat := (msbFirst v).countP id

/-! ## Words accepted and consumed (R52) -/

/-- R82: the buffered word is consumed at this edge. -/
def State.consumesNow (s : State) : Bool := s.bufValid && s.context.isSome

/-- The words accepted at the next `n` edges, in order. -/
def acceptedWords : Nat → State → List CmdWord
  | 0, _ => []
  | n + 1, s =>
    (if s.accepts then [s.pins.inData] else []) ++
      match step s with
      | .next t => acceptedWords n t
      | .fault _ => []
      | .refused _ => []

/-- The words consumed at the next `n` edges, in order. -/
def consumedWords : Nat → State → List CmdWord
  | 0, _ => []
  | n + 1, s =>
    (if s.consumesNow then [s.bufWord] else []) ++
      match step s with
      | .next t => consumedWords n t
      | .fault _ => []
      | .refused _ => []

/-- R33: the word accepted and not yet consumed. -/
def pendingWords (s : State) : List CmdWord := if s.bufValid then [s.bufWord] else []

/-! ## What the line depends on (R38, R96) -/

/-- Agreement on every register that a rule reads before writing it; the status bits, which no rule reads, apart. -/
structure LiveEq (s t : State) : Prop where
  cfg : s.cfg = t.cfg
  env : s.env = t.env
  fwState : s.fwState = t.fwState
  inFrame : s.inFrame = t.inFrame
  abort : s.abort = t.abort
  pinQ : s.pinQ = t.pinQ
  bufValid : s.bufValid = t.bufValid
  bufWord : s.bufValid = true → s.bufWord = t.bufWord
  sending : s.fwState = .send → s.col = t.col ∧ s.byteIdx = t.byteIdx ∧ s.bsByte = t.bsByte ∧
    s.bsLeft = t.bsLeft ∧ s.btPhase = t.btPhase ∧ s.btCnt = t.btCnt
  latching : s.fwState = .latch → s.latCnt = t.latCnt

/-! ## Changed inputs -/

/-- The same block in an environment whose pad never reports a failure. -/
def forgetPinErr (s : State) : State := { s with env := s.env.map fun p => { p with pinErr := false } }

/-- The same block with the current cycle's inputs replaced. -/
def withPins (p : Inputs) (s : State) : State := { s with env := p :: s.env.tail }

/-! ## A frame from its upstream (R94, R95) -/

/-- The data of a colour's word, bits [23:0] (R57). -/
def colourBits (p : Byte × Byte × Byte) : Colour := p.1 ++ p.2.1 ++ p.2.2

/-- R64: the words of a frame, offered from the start. -/
def frameOffers (cs : List (Byte × Byte × Byte)) : List Offer :=
  cs.map (fun p => { notBefore := 0, word := encode (.color p.1 p.2.1 p.2.2) }) ++
    [{ notBefore := 0, word := encode (.endFrame 0#24) }]

/-- R95: `B`, the cycles of a frame's bits. -/
def frameCycles (c : Config) (cs : List (Byte × Byte × Byte)) : Nat :=
  (cs.map fun p => waveCycles c (colourBits p)).sum

/-- The block idle between frames, nothing buffered. -/
def State.fresh (s : State) : Prop :=
  s.fwState = .idle ∧ s.inFrame = false ∧ s.abort = false ∧ s.bufValid = false ∧ s.pinQ = false ∧ s.doneQ = false

end Sys2Proof.Machine
end

