-- ==== Sys2Proof/Certificates/Slice0/Obligations.lean ====
section
/-! DEFINITION. Sys2Proof/Certificates/Slice0/Obligations.lean: the statements for the provers. Each docstring names the rule
of spec/ it comes from; where a clause is the model's own choice it names the log entry. -/

open Sys2Proof Sys2Proof.Machine

/-! ## Encoding -/

/-- R57, R58: decoding an encoded command gives it back, every operand bit of it, through the table's numbering as well. -/
def Obligations.DecodeInvertsEncode : Prop :=
  ∀ i : Instr, i.wellFormed = true → decode (encode i) = i ∧ decodeTableWord 26 (encode i).toNat = some i

/-- R62: every word is exactly one command, told by its `op`, and none is a no-op: at the edge that consumes it, it leaves
another state. -/
def Obligations.EveryWordIsExactlyOneCommand : Prop :=
  (∀ w : CmdWord, encode (decode w) = w ∧ ∀ i : Instr, encode i = w → i = decode w) ∧
  (∀ w : CmdWord,
    (w.extractLsb' 24 2 = 0b00#2 →
      decode w = .color (w.extractLsb' 16 8) (w.extractLsb' 8 8) (w.extractLsb' 0 8)) ∧
    (w.extractLsb' 24 2 = 0b01#2 → decode w = .endFrame (w.extractLsb' 0 24)) ∧
    (w.extractLsb' 24 2 = 0b10#2 → decode w = .rsvd2 (w.extractLsb' 0 24)) ∧
    (w.extractLsb' 24 2 = 0b11#2 → decode w = .rsvd3 (w.extractLsb' 0 24))) ∧
  (∀ (w : CmdWord) (s : State), s.bufValid = true → InIdle s ∨ AtColourEnd s → exec (decode w) s ≠ .next s)

/-- R65 and 95_test_vectors.md S8: words written out from the field layout. -/
def Obligations.WrittenWordsDecode : Prop :=
  decode 0x000FF00#26 = .color 0x00#8 0xFF#8 0x00#8 ∧ decode 0x00180A5#26 = .color 0x01#8 0x80#8 0xA5#8 ∧
  decode 0x1ABCDEF#26 = .endFrame 0xABCDEF#24 ∧ decode 0x2000000#26 = .rsvd2 0x000000#24 ∧
  decode 0x3FFFFFF#26 = .rsvd3 0xFFFFFF#24

/-- R63: COLOR with operands 0 to 255 assembles to the word that decodes to it, and to none otherwise; R64: a frame's
colours, in order, then END. -/
def Obligations.AssembledWordsDecode : Prop :=
  (∀ g r b : Nat, g < 256 → r < 256 → b < 256 →
    ∃ w, (AsmOp.color g r b).assemble = some w ∧
      decode w = .color (BitVec.ofNat 8 g) (BitVec.ofNat 8 r) (BitVec.ofNat 8 b)) ∧
  (∀ g r b : Nat, 256 ≤ g ∨ 256 ≤ r ∨ 256 ≤ b → (AsmOp.color g r b).assemble = none) ∧
  (∀ w : Nat, (AsmOp.word w).assemble = if w < 67108864 then some (BitVec.ofNat 26 w) else none) ∧
  (∀ cs : List (Byte × Byte × Byte),
    assembleProgram [.frame (cs.map fun p => (p.1.toNat, p.2.1.toNat, p.2.2.toNat))] = some (frameOffers cs))

/-! ## Configuration -/

/-- R9: the cycle counts, and that rounding up never shortens a duration and lengthens it by less than one period. -/
def Obligations.DurationsRoundUpToCycles : Prop :=
  (∀ c : Config, c.t1hCyc = (c.t1hNs * c.fClkHz + 10 ^ 9 - 1) / 10 ^ 9 ∧
    c.t1lCyc = (c.t1lNs * c.fClkHz + 10 ^ 9 - 1) / 10 ^ 9 ∧
    c.t0lCyc = (c.t0lNs * c.fClkHz + 10 ^ 9 - 1) / 10 ^ 9 ∧
    c.trstCyc = (c.trstNs * c.fClkHz + 10 ^ 9 - 1) / 10 ^ 9 ∧
    (c.profile = .standard → c.t0hCyc = (c.t0hNs * c.fClkHz + 10 ^ 9 - 1) / 10 ^ 9)) ∧
  (∀ f d : Nat, d * f ≤ cyc f d * 10 ^ 9 ∧ cyc f d * 10 ^ 9 < d * f + 10 ^ 9)

/-- R11, with R10's slow bit 0: what a legal configuration is, where the default durations are legal, and that an illegal
one has no step. -/
def Obligations.LegalConfigurations : Prop :=
  (∀ c : Config, c.legal = true ↔
    1 ≤ c.t1hCyc ∧ 1 ≤ c.t1lCyc ∧ 1 ≤ c.t0hCyc ∧ 1 ≤ c.t0lCyc ∧ 1 ≤ c.trstCyc ∧ c.t0hCyc < c.t1hCyc) ∧
  (∀ c : Config, c.profile = .slow → c.t0hCyc = 1) ∧
  (∀ (f : Nat) (p : TimingProfile) (e : OnPinError),
    ((Config.withDefaults f p e).legal = true ↔ 600 * f > 10 ^ 9) ∧ (600 * f > 10 ^ 9 ↔ 1666667 ≤ f)) ∧
  (∀ s : State, s.cfg.legal = false → step s = .refused .illegalConfiguration)

/-- R12: the counters fit the widths the configuration gives them, and every step keeps that. -/
def Obligations.CountersFitTheirWidths : Prop :=
  (∀ s t : State, CountersFit s → step s = .next t → CountersFit t) ∧
  (∀ (c : Config) (e : List Inputs), CountersFit (State.resetWith c e))

/-! ## The step -/

/-- R82, R93: at an edge that consumes, the step is the meaning of the command in the buffer, on the state with the frame
result cleared (R91), and then the next cycle (R15). -/
def Obligations.StepRunsTheBufferedCommand : Prop :=
  ∀ (s : State) (i : Instr), s.cfg.legal = true → s.bufValid = true → s.bufWord = encode i → i.wellFormed = true →
    InIdle s ∨ AtColourEnd s →
      step s = mapNext (fun t => { t with env := s.env.tail }) (exec i { s with doneQ := false, ferrQ := false })

/-- R93, R97: a legal block has a step in every state, whatever the inputs; no event stops it; the configuration never
changes (00_scope.md section 3); each step takes one cycle's inputs (R15). -/
def Obligations.NothingStopsTheBlock : Prop :=
  ∀ (n : Nat) (s : State), s.cfg.legal = true →
    ∃ t, run n s = .next t ∧ t.cfg = s.cfg ∧ t.env = s.env.drop n

/-! ## Reset -/

/-- R18 with the values of R38: at an edge with `rst_i = 1`, from any state at all (R112). -/
def Obligations.ResetEdgeRestoresEveryRegister : Prop :=
  ∀ s : State, s.cfg.legal = true → s.pins.rst = true →
    step s = .next
      { cfg := s.cfg, env := s.env.tail, fwState := .idle, inFrame := false, abort := false, col := 0#24,
        byteIdx := .green, latCnt := 0, bufValid := false, bufWord := 0#26, doneQ := false, ferrQ := false,
        badCmdQ := false, bsByte := 0#8, bsLeft := 0, btPhase := .low, btCnt := 0, pinQ := false }

/-- R111: any number of reset edges, at least one, leaves what one leaves. -/
def Obligations.HeldResetChangesNothingMore : Prop :=
  ∀ (n : Nat) (s : State), s.cfg.legal = true → n + 1 ≤ s.env.length →
    (∀ p ∈ s.env.take (n + 1), p.rst = true) →
      run (n + 1) s = .next (State.resetWith s.cfg (s.env.drop (n + 1)))

/-- R45 at reset, for every configuration and every environment. -/
def Obligations.ResetStateMeetsTheInvariant : Prop :=
  (∀ (c : Config) (e : List Inputs), BlockInv (State.resetWith c e)) ∧ BlockInv State.reset

/-- R113: from a reset on, the line is low until a COLOR word has been consumed. -/
def Obligations.LineIsLowUntilAColorIsConsumed : Prop :=
  ∀ (n : Nat) (c : Config) (e : List Inputs), c.legal = true →
    (∀ w ∈ consumedWords n (State.resetWith c e), w.extractLsb' 24 2 ≠ 0b00#2) →
      lineTrace (n + 1) (State.resetWith c e) = List.replicate (n + 1) false

/-! ## The input buffer -/

/-- R81: when a word is accepted, what an accepting edge writes, that the word is not looked at, and that acceptance and
consumption never happen at the same edge. -/
def Obligations.AcceptanceFillsTheEmptyBuffer : Prop :=
  (∀ s : State, s.accepts = true ↔ s.pins.inValid = true ∧ s.bufValid = false ∧ s.pins.rst = false) ∧
  (∀ s t : State, step s = .next t → s.accepts = true → t.bufValid = true ∧ t.bufWord = s.pins.inData) ∧
  (∀ s : State, s.accepts = true → s.consumesNow = false) ∧
  (∀ (s : State) (w : CmdWord), (withPins { s.pins with inData := w } s).accepts = s.accepts)

/-- R82: the buffer is emptied exactly by consumption; at every other edge without reset a buffered word waits, and its
command, were it run there, writes nothing (log entry 4). -/
def Obligations.BufferedWordWaitsUntilConsumed : Prop :=
  (∀ s t : State, step s = .next t → s.pins.rst = false → s.bufValid = true →
    (InIdle s ∨ AtColourEnd s → t.bufValid = false) ∧
    (¬ (InIdle s ∨ AtColourEnd s) → t.bufValid = true ∧ t.bufWord = s.bufWord)) ∧
  (∀ (i : Instr) (s : State), ¬ (InIdle s ∨ AtColourEnd s) → exec i s = .next s)

/-- R52: over any run without reset, the words consumed are the words accepted, in that order, each once; the one word not
yet consumed is in the buffer. -/
def Obligations.WordsTakeEffectOnceInOrder : Prop :=
  ∀ (n : Nat) (s t : State), NoReset n s → run n s = .next t →
    pendingWords s ++ acceptedWords n s = consumedWords n s ++ pendingWords t

/-- R19: `in_data_i` has no effect at an edge without acceptance. -/
def Obligations.UnacceptedDataHasNoEffect : Prop :=
  ∀ (s : State) (w : CmdWord), s.accepts = false → step (withPins { s.pins with inData := w } s) = step (withPins s.pins s)

/-! ## The commands -/

/-- R84: COLOR in IDLE opens or resumes a frame and starts green's first bit; with `abort = 1` it is discarded; at a
colour's end it starts the next colour with no gap. Every register is said. -/
def Obligations.ColorStartsItsFirstBitOrIsDiscarded : Prop :=
  (∀ (g r b : Byte) (s : State), InIdle s → s.abort = false →
    exec (.color g r b) s = .next
      { s with bufValid := false, inFrame := true, fwState := .send, col := g ++ r ++ b, byteIdx := .green,
               bsByte := g, bsLeft := 8, btPhase := .high,
               btCnt := if g.getLsbD 7 then s.cfg.t1hCyc else s.cfg.t0hCyc, pinQ := true }) ∧
  (∀ (g r b : Byte) (s : State), InIdle s → s.abort = true →
    exec (.color g r b) s = .next { s with bufValid := false }) ∧
  (∀ (g r b : Byte) (s : State), AtColourEnd s →
    exec (.color g r b) s = .next
      { s with bufValid := false, col := g ++ r ++ b, byteIdx := .green, bsByte := g, bsLeft := 8, btPhase := .high,
               btCnt := if g.getLsbD 7 then s.cfg.t1hCyc else s.cfg.t0hCyc, pinQ := true })

/-- R85: END, in either context, closes the frame and starts the latch period. Every register is said. -/
def Obligations.EndStartsTheLatchPeriod : Prop :=
  ∀ (x : BitVec 24) (s : State), InIdle s ∨ AtColourEnd s →
    exec (.endFrame x) s = .next
      { s with bufValid := false, inFrame := false, fwState := .latch, latCnt := s.cfg.trstCyc }

/-- R60: END has no operands: every value of bits [23:0] means END, and none is a fault. -/
def Obligations.EndIgnoresItsLowBits : Prop :=
  ∀ x : BitVec 24, decode (0b01#2 ++ x) = .endFrame x ∧
    ∀ s : State, exec (.endFrame x) s = exec (.endFrame 0#24) s ∧
      ∃ t, exec (.endFrame x) s = .next t ∧ t.badCmdQ = s.badCmdQ

/-- R86, R87: a reserved word is discarded and recorded; in IDLE nothing else changes, at a colour's end the frame stalls.
Every register is said. -/
def Obligations.ReservedWordsAreDiscardedAndRecorded : Prop :=
  (∀ (x : BitVec 24) (s : State), InIdle s →
    exec (.rsvd2 x) s = .next { s with bufValid := false, badCmdQ := true } ∧
    exec (.rsvd3 x) s = .next { s with bufValid := false, badCmdQ := true }) ∧
  (∀ (x : BitVec 24) (s : State), AtColourEnd s →
    exec (.rsvd2 x) s = .next { s with bufValid := false, badCmdQ := true, fwState := .idle } ∧
    exec (.rsvd3 x) s = .next { s with bufValid := false, badCmdQ := true, fwState := .idle })

/-- The frame of the four commands (R84 to R87, "flags written"): no command writes the configuration, the inputs, the
buffered word, the frame's result or `abort`; only COLOR writes the colour, serializer and bit-timer registers; only END
the latch counter; only the reserved words `bad_cmd_q`; a reserved word does not touch `in_frame`. -/
def Obligations.CommandsLeaveTheRestUnchanged : Prop :=
  ∀ (i : Instr) (s t : State), exec i s = .next t →
    (t.cfg = s.cfg ∧ t.env = s.env ∧ t.bufWord = s.bufWord ∧ t.doneQ = s.doneQ ∧ t.ferrQ = s.ferrQ ∧
      t.abort = s.abort) ∧
    ((∀ g r b, i ≠ .color g r b) → t.col = s.col ∧ t.byteIdx = s.byteIdx ∧ t.bsByte = s.bsByte ∧ t.bsLeft = s.bsLeft ∧
      t.btPhase = s.btPhase ∧ t.btCnt = s.btCnt ∧ t.pinQ = s.pinQ) ∧
    ((∀ x, i ≠ .endFrame x) → t.latCnt = s.latCnt) ∧
    ((∀ x, i ≠ .rsvd2 x) → (∀ x, i ≠ .rsvd3 x) → t.badCmdQ = s.badCmdQ) ∧
    (∀ x, i = .rsvd2 x ∨ i = .rsvd3 x → t.inFrame = s.inFrame)

/-! ## One edge of the stages -/

/-- R68: the high phase. -/
def Obligations.HighPhaseCountsThenFalls : Prop :=
  ∀ s : State, s.cfg.legal = true → s.pins.rst = false → s.fwState = .send → s.btPhase = .high → NoPadAbort s →
    (2 ≤ s.btCnt → step s = .next { edgeBase s with btCnt := s.btCnt - 1 }) ∧
    (s.btCnt < 2 → step s = .next
      { edgeBase s with pinQ := false, btPhase := .low,
                        btCnt := if s.bsByte.getLsbD 7 then s.cfg.t1lCyc else s.cfg.t0lCyc })

/-- R69, R76, R83: the low phase, and the next bit or byte at its end, with STARTBIT's writes (R67). -/
def Obligations.LowPhaseCountsThenStartsTheNextBit : Prop :=
  ∀ s : State, s.cfg.legal = true → s.pins.rst = false → s.fwState = .send → s.btPhase = .low → NoPadAbort s →
    (2 ≤ s.btCnt → step s = .next { edgeBase s with btCnt := s.btCnt - 1 }) ∧
    (s.btCnt < 2 → 2 ≤ s.bsLeft → step s = .next
      { edgeBase s with bsByte := s.bsByte <<< 1, bsLeft := s.bsLeft - 1, btPhase := .high, pinQ := true,
                        btCnt := if s.bsByte.getLsbD 6 then s.cfg.t1hCyc else s.cfg.t0hCyc }) ∧
    (s.btCnt < 2 → s.bsLeft < 2 → s.byteIdx = .green → step s = .next
      { edgeBase s with byteIdx := .red, bsByte := s.col.extractLsb' 8 8, bsLeft := 8, btPhase := .high, pinQ := true,
                        btCnt := if s.col.getLsbD 15 then s.cfg.t1hCyc else s.cfg.t0hCyc }) ∧
    (s.btCnt < 2 → s.bsLeft < 2 → s.byteIdx = .red → step s = .next
      { edgeBase s with byteIdx := .blue, bsByte := s.col.extractLsb' 0 8, bsLeft := 8, btPhase := .high, pinQ := true,
                        btCnt := if s.col.getLsbD 7 then s.cfg.t1hCyc else s.cfg.t0hCyc })

/-- R88, R109: with no word buffered, the frame stalls at a colour's end, and IDLE holds every register. -/
def Obligations.StallAndIdleWaitForAWord : Prop :=
  (∀ s : State, s.cfg.legal = true → AtColourEnd s → s.bufValid = false →
    step s = .next { edgeBase s with fwState := .idle }) ∧
  (∀ s : State, s.cfg.legal = true → InIdle s → s.bufValid = false → step s = .next (edgeBase s))

/-- R89, R90: the latch countdown and its end. -/
def Obligations.LatchCountsThenReports : Prop :=
  ∀ s : State, s.cfg.legal = true → s.pins.rst = false → s.fwState = .latch →
    (2 ≤ s.latCnt → step s = .next { edgeBase s with latCnt := s.latCnt - 1 }) ∧
    (s.latCnt < 2 → step s = .next
      { edgeBase s with fwState := .idle, doneQ := true, ferrQ := s.abort, abort := false })

/-- R92: the pad abort, before every other rule of SEND (R102 item 3); a buffered word is not consumed at this edge. -/
def Obligations.PadFailureAbortsTheFrame : Prop :=
  ∀ s : State, s.cfg.legal = true → s.pins.rst = false → s.fwState = .send → s.cfg.onPinError = .abort →
    s.pins.pinErr = true →
      step s = .next { edgeBase s with pinQ := false, fwState := .idle, abort := true }

/-! ## Rules of the whole machine -/

/-- R71, R21: a pad report changes nothing outside SEND, and nothing at all under IGNORE, now or later. -/
def Obligations.PadReportsAreReadOnlyInSendUnderAbort : Prop :=
  (∀ (s : State) (e : Bool), s.fwState ≠ .send ∨ s.cfg.onPinError = .ignore →
    step (withPins { s.pins with pinErr := e } s) = step (withPins s.pins s)) ∧
  (∀ (n : Nat) (s : State), s.cfg.onPinError = .ignore →
    lineTrace n (forgetPinErr s) = lineTrace n s ∧ run n (forgetPinErr s) = mapNext forgetPinErr (run n s))

/-- R70, R78: the serializer's registers change only where a bit ends in SEND, where a COLOR is consumed in IDLE, and at
reset; so the bit value of the bit in progress stays. -/
def Obligations.SerializerHoldsDuringABit : Prop :=
  ∀ s t : State, step s = .next t → s.pins.rst = false →
    t.bsByte ≠ s.bsByte ∨ t.bsLeft ≠ s.bsLeft →
      (s.fwState = .send ∧ s.btPhase = .low ∧ s.btCnt < 2 ∧ NoPadAbort s) ∨
      (s.fwState = .idle ∧ s.bufValid = true ∧ s.abort = false ∧ ∃ g r b, decode s.bufWord = .color g r b)

/-- R72: outside SEND the bit timer holds, unless a COLOR is consumed in IDLE or the block is reset. -/
def Obligations.BitTimerHoldsOutsideSend : Prop :=
  ∀ s t : State, step s = .next t → s.pins.rst = false → s.fwState ≠ .send →
    t.btPhase ≠ s.btPhase ∨ t.btCnt ≠ s.btCnt ∨ t.pinQ ≠ s.pinQ →
      s.fwState = .idle ∧ s.bufValid = true ∧ s.abort = false ∧ ∃ g r b, decode s.bufWord = .color g r b

/-- R91, R90, R24, R34: `done_q` is set by the edge that ends a latch period and by no other, with `ferr_q` = `abort`
beside it; and from a state of the invariant it never lasts two cycles. -/
def Obligations.DoneIsAOneCyclePulse : Prop :=
  (∀ s t : State, step s = .next t →
    (t.doneQ = true ↔ s.pins.rst = false ∧ s.fwState = .latch ∧ s.latCnt < 2) ∧
    (t.ferrQ = true ↔ s.pins.rst = false ∧ s.fwState = .latch ∧ s.latCnt < 2 ∧ s.abort = true)) ∧
  (∀ s t : State, BlockInv s → step s = .next t → s.doneQ = true → t.doneQ = false)

/-- R26, R35: `bad_cmd_q` is set by the consumption of a reserved word, and then only reset clears it. -/
def Obligations.BadCmdIsStickyUntilReset : Prop :=
  ∀ s t : State, step s = .next t →
    (t.badCmdQ = true ↔ s.pins.rst = false ∧
      (s.badCmdQ = true ∨ (s.bufValid = true ∧ (InIdle s ∨ AtColourEnd s) ∧ s.bufWord.getLsbD 25 = true)))

/-- R103, R104, R99: from an abort on, the line is low and the abort lasts, through discarded colours, reserved words and
END, until the edge that ends the latch period reports it and clears it. -/
def Obligations.AbortLastsUntilTheFrameIsReported : Prop :=
  ∀ s t : State, BlockInv s → s.abort = true → s.pins.rst = false → step s = .next t →
    t.pinQ = false ∧
    ((t.abort = true ∧ t.doneQ = false) ∨
     (s.fwState = .latch ∧ s.latCnt < 2 ∧ t.abort = false ∧ t.doneQ = true ∧ t.ferrQ = true))

/-! ## Invariants -/

/-- R45: every step keeps the invariant. -/
def Obligations.StepKeepsTheInvariant : Prop :=
  ∀ s t : State, BlockInv s → step s = .next t → BlockInv t

/-- R45: every state reached from reset meets the invariant, in every environment and every configuration; so
`busy_o = 0` means a low line (item 7), and under IGNORE no frame is ever reported as failed (R25). -/
def Obligations.ReachableStatesMeetTheInvariant : Prop :=
  ∀ (n : Nat) (c : Config) (e : List Inputs) (t : State), run n (State.resetWith c e) = .next t →
    BlockInv t ∧ (t.busyO = false → t.doutO = false) ∧ (c.onPinError = .ignore → t.frameErrO = false)

/-! ## Waveforms -/

/-- R73, R74: EMIT_BIT: the high cycles then the low cycles of the bit, nothing before, between or after; in the last
cycle the bit is about to end, and `bs_byte`, `bs_left`, `byte_idx`, `col`, `fw_state`, `in_frame`, `abort` and `bad_cmd_q` are
as at its start. Under SLOW a 0 bit is high for one cycle. -/
def Obligations.BitWaveform : Prop :=
  (∀ (s : State) (b : Bool), s.cfg.legal = true → s.fwState = .send → s.btPhase = .high → s.pinQ = true →
    s.bsByte.getLsbD 7 = b → s.btCnt = s.cfg.highCyc b → Undisturbed (bitCycles s.cfg b) s →
      lineTrace (bitCycles s.cfg b) s = bitWave s.cfg b ∧
      ∃ t, run (bitCycles s.cfg b - 1) s = .next t ∧ t.fwState = .send ∧ t.btPhase = .low ∧ t.btCnt = 1 ∧
        t.pinQ = false ∧ t.bsByte = s.bsByte ∧ t.bsLeft = s.bsLeft ∧ t.byteIdx = s.byteIdx ∧ t.col = s.col ∧
        t.inFrame = s.inFrame ∧ t.abort = s.abort ∧ t.badCmdQ = s.badCmdQ) ∧
  (∀ c : Config, c.profile = .slow → bitWave c false = true :: List.replicate c.t0lCyc false)

/-- R79: EMIT_BYTE: the eight pulses of the byte, most significant bit first, with no gap; in the last cycle the byte is
about to end, its sent bits shifted out, and `byte_idx`, `col`, `fw_state`, `in_frame`, `abort` and `bad_cmd_q` are as at its
start. -/
def Obligations.ByteWaveform : Prop :=
  ∀ (s : State) (v : Byte), s.cfg.legal = true → s.fwState = .send → s.btPhase = .high → s.pinQ = true →
    s.bsByte = v → s.bsLeft = 8 → s.btCnt = s.cfg.highCyc (v.getLsbD 7) → Undisturbed (waveCycles s.cfg v) s →
      lineTrace (waveCycles s.cfg v) s = wave s.cfg v ∧
      ∃ t, run (waveCycles s.cfg v - 1) s = .next t ∧ t.fwState = .send ∧ t.btPhase = .low ∧ t.btCnt = 1 ∧
        t.pinQ = false ∧ t.bsByte = v <<< 7 ∧ t.bsLeft = 1 ∧ t.byteIdx = s.byteIdx ∧ t.col = s.col ∧
        t.inFrame = s.inFrame ∧ t.abort = s.abort ∧ t.badCmdQ = s.badCmdQ

/-- R80: the length of a byte in cycles. -/
def Obligations.ByteLengthInCycles : Prop :=
  (∀ (c : Config) (v : Byte), waveCycles c v =
    (8 - popCount v) * (c.t0hCyc + c.t0lCyc) + popCount v * (c.t1hCyc + c.t1lCyc)) ∧
  (∀ v : Byte, waveCycles Config.ref10 v = 88 + popCount v ∧ waveCycles Config.ref10S v = 72 + 3 * popCount v) ∧
  waveCycles Config.ref10 0x00#8 = 88 ∧ waveCycles Config.ref10 0xFF#8 = 96 ∧
  waveCycles Config.ref10S 0x00#8 = 72 ∧ waveCycles Config.ref10S 0xFF#8 = 96

/-- R47, R84: from the edge that consumes a COLOR for transmission, the 24 data bits of its word leave in the order bit 23
to bit 0, with no gap; in the last cycle the colour is about to end. -/
def Obligations.ColourWaveform : Prop :=
  ∀ (s : State) (g r b : Byte) (w : CmdWord), s.cfg.legal = true → s.bufValid = true → s.bufWord = w →
    w = encode (.color g r b) → (InIdle s ∧ s.abort = false) ∨ AtColourEnd s →
    Undisturbed (1 + waveCycles s.cfg (w.extractLsb' 0 24)) s →
      lineTrace (1 + waveCycles s.cfg (w.extractLsb' 0 24)) s =
        s.pinQ :: (List.range 24).flatMap (fun k => bitWave s.cfg (w.getLsbD (23 - k))) ∧
      waveCycles s.cfg (w.extractLsb' 0 24) = waveCycles s.cfg g + waveCycles s.cfg r + waveCycles s.cfg b ∧
      ∃ t, run (waveCycles s.cfg (w.extractLsb' 0 24)) s = .next t ∧ t.fwState = .send ∧ t.btPhase = .low ∧
        t.btCnt = 1 ∧ t.bsLeft = 1 ∧ t.byteIdx = .blue ∧ t.pinQ = false

/-- R89, R90, R53, R125: from any cycle of a latch period on, the line is low for the cycles left and the IDLE cycle after
them, and in that cycle `done_o = 1` with `frame_err_o` the abort. -/
def Obligations.LatchPeriodEndsInDone : Prop :=
  ∀ (n : Nat) (s : State), s.cfg.legal = true → s.fwState = .latch → s.latCnt = n → 1 ≤ n → s.pinQ = false →
    NoReset n s →
      lineTrace (n + 1) s = List.replicate (n + 1) false ∧
      (∀ k, 0 < k → k < n → ∃ t, run k s = .next t ∧ t.fwState = .latch ∧ t.doneQ = false) ∧
      ∃ t, run n s = .next t ∧ t.fwState = .idle ∧ t.doneQ = true ∧ t.ferrQ = s.abort ∧ t.abort = false ∧
        t.inFrame = s.inFrame

/-- R88, R116: a stalled frame, its next COLOR offered after `j` cycles without an offer, keeps the line low for `j + 2`
cycles and then goes on with that colour. -/
def Obligations.StalledFrameResumesWithTheNextColor : Prop :=
  ∀ (s : State) (g r b : Byte) (before : List Inputs) (offer next : Inputs) (later : List Inputs),
    s.cfg.legal = true → s.fwState = .idle → s.inFrame = true → s.abort = false → s.bufValid = false →
    s.pinQ = false → s.env = before ++ offer :: next :: later →
    (∀ p ∈ before, p.rst = false ∧ p.inValid = false) →
    offer.rst = false → offer.inValid = true → offer.inData = encode (.color g r b) → next.rst = false →
      lineTrace (before.length + 2) s = List.replicate (before.length + 2) false ∧
      ∃ t, run (before.length + 2) s = .next t ∧ t.fwState = .send ∧ t.inFrame = true ∧ t.pinQ = true ∧
        t.bsByte = g ∧ t.bsLeft = 8 ∧ t.byteIdx = .green ∧ t.col = g ++ r ++ b ∧ t.btPhase = .high ∧
        t.btCnt = s.cfg.highCyc (g.getLsbD 7)

/-- R94, R95: a frame offered by an upstream that holds each word until it is accepted (R63; the bench of
Machine/Upstream.lean, log entry 12), from a fresh block: two cycles to the first bit, the bits of the colours in order with
no gap, one latch period, and `done_o` in the cycle after it and in none before. -/
def Obligations.FrameOnTheWire : Prop :=
  ∀ (s : State) (cs : List (Byte × Byte × Byte)) (k : Nat), s.cfg.legal = true → s.fresh →
    Bench.trace (2 + frameCycles s.cfg cs + s.cfg.trstCyc)
        { block := s, cycle := k, offers := frameOffers cs, pinErrCycles := [], rstCycles := [] } =
      (List.replicate 2 false ++ cs.flatMap (fun p => wave s.cfg (colourBits p)) ++
        List.replicate s.cfg.trstCyc false).map (fun x => (x, false)) ∧
    ∃ b, Bench.run (2 + frameCycles s.cfg cs + s.cfg.trstCyc)
        { block := s, cycle := k, offers := frameOffers cs, pinErrCycles := [], rstCycles := [] } = some b ∧
      b.offers = [] ∧ b.block.doneO = true ∧ b.block.frameErrO = false ∧ b.block.busyO = false ∧ b.block.doutO = false

/-! ## What does not matter -/

/-- R38, R96: registers that no rule reads before writing them are unobservable: two blocks that agree on the others have
the same line for ever, and after one step the same frame result. -/
def Obligations.LeftoverRegistersAreUnobservable : Prop :=
  ∀ s t : State, LiveEq s t →
    (∀ s', step s = .next s' → ∃ t', step t = .next t' ∧ LiveEq s' t' ∧ s'.doneQ = t'.doneQ ∧ s'.ferrQ = t'.ferrQ) ∧
    (∀ n, lineTrace n s = lineTrace n t)

/-- R96: in the cycle of `done_o` nothing of the frame is left: from there on the line is that of a block just reset, with
the same word in its buffer. -/
def Obligations.NoStateLeaksBetweenFrames : Prop :=
  ∀ s : State, BlockInv s → s.doneQ = true →
    (s.fwState = .idle ∧ s.inFrame = false ∧ s.abort = false ∧ s.pinQ = false) ∧
    ∀ n, lineTrace n s =
      lineTrace n { State.resetWith s.cfg s.env with bufValid := s.bufValid, bufWord := s.bufWord }
end

