-- ==== Sys2Proof/Laws/Decode.lean ====
section
/-! SUPPORT. Sys2Proof/Laws/Decode.lean: the fields of an encoded command, and a word as its two fields. -/

namespace Sys2Proof

theorem opField_encode (i : Instr) : opField (encode i) = i.op := by
  apply BitVec.eq_of_getLsbD_eq
  intro k hk
  simp only [opField, encode, BitVec.getLsbD_append, BitVec.getLsbD_extractLsb']
  grind

theorem dataField_encode (i : Instr) : dataField (encode i) = i.data := by
  apply BitVec.eq_of_getLsbD_eq
  intro k hk
  simp only [dataField, encode, BitVec.getLsbD_append, BitVec.getLsbD_extractLsb']
  grind

theorem greenField_encode (g r b : Byte) : greenField (encode (.color g r b)) = g := by
  apply BitVec.eq_of_getLsbD_eq
  intro k hk
  simp only [greenField, encode, Instr.data, BitVec.getLsbD_append, BitVec.getLsbD_extractLsb']
  grind

theorem redField_encode (g r b : Byte) : redField (encode (.color g r b)) = r := by
  apply BitVec.eq_of_getLsbD_eq
  intro k hk
  simp only [redField, encode, Instr.data, BitVec.getLsbD_append, BitVec.getLsbD_extractLsb']
  grind

theorem blueField_encode (g r b : Byte) : blueField (encode (.color g r b)) = b := by
  apply BitVec.eq_of_getLsbD_eq
  intro k hk
  simp only [blueField, encode, Instr.data, BitVec.getLsbD_append, BitVec.getLsbD_extractLsb']
  grind

/-- A word is its `op` and its data, nothing else (R57). -/
theorem word_eq_fields (w : CmdWord) : w = opField w ++ dataField w := by
  apply BitVec.eq_of_getLsbD_eq
  intro i hi
  simp only [opField, dataField, BitVec.getLsbD_append, BitVec.getLsbD_extractLsb']
  split <;> grind

/-- The data of a word is its three colour fields (R57). -/
theorem dataField_eq_fields (w : CmdWord) : greenField w ++ redField w ++ blueField w = dataField w := by
  apply BitVec.eq_of_getLsbD_eq
  intro i hi
  simp only [greenField, redField, blueField, dataField, BitVec.getLsbD_append, BitVec.getLsbD_extractLsb']
  grind

end Sys2Proof
end

