-- ==== Sys2Proof/Laws/State.lean ====
section
/-! SUPPORT. Sys2Proof/Laws/State.lean: what each named register write does to each field, one lemma a field, so that no proof
unfolds a record update. -/

namespace Sys2Proof.Machine


/-! nextCycle -/

@[simp] theorem nextCycle_cfg (s : State) : (nextCycle s).cfg = s.cfg := rfl
@[simp] theorem nextCycle_env (s : State) : (nextCycle s).env = s.env.tail := rfl
@[simp] theorem nextCycle_fwState (s : State) : (nextCycle s).fwState = s.fwState := rfl
@[simp] theorem nextCycle_inFrame (s : State) : (nextCycle s).inFrame = s.inFrame := rfl
@[simp] theorem nextCycle_abort (s : State) : (nextCycle s).abort = s.abort := rfl
@[simp] theorem nextCycle_col (s : State) : (nextCycle s).col = s.col := rfl
@[simp] theorem nextCycle_byteIdx (s : State) : (nextCycle s).byteIdx = s.byteIdx := rfl
@[simp] theorem nextCycle_latCnt (s : State) : (nextCycle s).latCnt = s.latCnt := rfl
@[simp] theorem nextCycle_bufValid (s : State) : (nextCycle s).bufValid = s.bufValid := rfl
@[simp] theorem nextCycle_bufWord (s : State) : (nextCycle s).bufWord = s.bufWord := rfl
@[simp] theorem nextCycle_doneQ (s : State) : (nextCycle s).doneQ = s.doneQ := rfl
@[simp] theorem nextCycle_ferrQ (s : State) : (nextCycle s).ferrQ = s.ferrQ := rfl
@[simp] theorem nextCycle_badCmdQ (s : State) : (nextCycle s).badCmdQ = s.badCmdQ := rfl
@[simp] theorem nextCycle_bsByte (s : State) : (nextCycle s).bsByte = s.bsByte := rfl
@[simp] theorem nextCycle_bsLeft (s : State) : (nextCycle s).bsLeft = s.bsLeft := rfl
@[simp] theorem nextCycle_btPhase (s : State) : (nextCycle s).btPhase = s.btPhase := rfl
@[simp] theorem nextCycle_btCnt (s : State) : (nextCycle s).btCnt = s.btCnt := rfl
@[simp] theorem nextCycle_pinQ (s : State) : (nextCycle s).pinQ = s.pinQ := rfl

/-! clearResult -/

@[simp] theorem clearResult_cfg (s : State) : (clearResult s).cfg = s.cfg := rfl
@[simp] theorem clearResult_env (s : State) : (clearResult s).env = s.env := rfl
@[simp] theorem clearResult_fwState (s : State) : (clearResult s).fwState = s.fwState := rfl
@[simp] theorem clearResult_inFrame (s : State) : (clearResult s).inFrame = s.inFrame := rfl
@[simp] theorem clearResult_abort (s : State) : (clearResult s).abort = s.abort := rfl
@[simp] theorem clearResult_col (s : State) : (clearResult s).col = s.col := rfl
@[simp] theorem clearResult_byteIdx (s : State) : (clearResult s).byteIdx = s.byteIdx := rfl
@[simp] theorem clearResult_latCnt (s : State) : (clearResult s).latCnt = s.latCnt := rfl
@[simp] theorem clearResult_bufValid (s : State) : (clearResult s).bufValid = s.bufValid := rfl
@[simp] theorem clearResult_bufWord (s : State) : (clearResult s).bufWord = s.bufWord := rfl
@[simp] theorem clearResult_doneQ (s : State) : (clearResult s).doneQ = false := rfl
@[simp] theorem clearResult_ferrQ (s : State) : (clearResult s).ferrQ = false := rfl
@[simp] theorem clearResult_badCmdQ (s : State) : (clearResult s).badCmdQ = s.badCmdQ := rfl
@[simp] theorem clearResult_bsByte (s : State) : (clearResult s).bsByte = s.bsByte := rfl
@[simp] theorem clearResult_bsLeft (s : State) : (clearResult s).bsLeft = s.bsLeft := rfl
@[simp] theorem clearResult_btPhase (s : State) : (clearResult s).btPhase = s.btPhase := rfl
@[simp] theorem clearResult_btCnt (s : State) : (clearResult s).btCnt = s.btCnt := rfl
@[simp] theorem clearResult_pinQ (s : State) : (clearResult s).pinQ = s.pinQ := rfl

/-! reportResult -/

@[simp] theorem reportResult_cfg (s : State) : (reportResult s).cfg = s.cfg := rfl
@[simp] theorem reportResult_env (s : State) : (reportResult s).env = s.env := rfl
@[simp] theorem reportResult_fwState (s : State) : (reportResult s).fwState = s.fwState := rfl
@[simp] theorem reportResult_inFrame (s : State) : (reportResult s).inFrame = s.inFrame := rfl
@[simp] theorem reportResult_abort (s : State) : (reportResult s).abort = false := rfl
@[simp] theorem reportResult_col (s : State) : (reportResult s).col = s.col := rfl
@[simp] theorem reportResult_byteIdx (s : State) : (reportResult s).byteIdx = s.byteIdx := rfl
@[simp] theorem reportResult_latCnt (s : State) : (reportResult s).latCnt = s.latCnt := rfl
@[simp] theorem reportResult_bufValid (s : State) : (reportResult s).bufValid = s.bufValid := rfl
@[simp] theorem reportResult_bufWord (s : State) : (reportResult s).bufWord = s.bufWord := rfl
@[simp] theorem reportResult_doneQ (s : State) : (reportResult s).doneQ = true := rfl
@[simp] theorem reportResult_ferrQ (s : State) : (reportResult s).ferrQ = s.abort := rfl
@[simp] theorem reportResult_badCmdQ (s : State) : (reportResult s).badCmdQ = s.badCmdQ := rfl
@[simp] theorem reportResult_bsByte (s : State) : (reportResult s).bsByte = s.bsByte := rfl
@[simp] theorem reportResult_bsLeft (s : State) : (reportResult s).bsLeft = s.bsLeft := rfl
@[simp] theorem reportResult_btPhase (s : State) : (reportResult s).btPhase = s.btPhase := rfl
@[simp] theorem reportResult_btCnt (s : State) : (reportResult s).btCnt = s.btCnt := rfl
@[simp] theorem reportResult_pinQ (s : State) : (reportResult s).pinQ = s.pinQ := rfl

/-! recordBadCmd -/

@[simp] theorem recordBadCmd_cfg (s : State) : (recordBadCmd s).cfg = s.cfg := rfl
@[simp] theorem recordBadCmd_env (s : State) : (recordBadCmd s).env = s.env := rfl
@[simp] theorem recordBadCmd_fwState (s : State) : (recordBadCmd s).fwState = s.fwState := rfl
@[simp] theorem recordBadCmd_inFrame (s : State) : (recordBadCmd s).inFrame = s.inFrame := rfl
@[simp] theorem recordBadCmd_abort (s : State) : (recordBadCmd s).abort = s.abort := rfl
@[simp] theorem recordBadCmd_col (s : State) : (recordBadCmd s).col = s.col := rfl
@[simp] theorem recordBadCmd_byteIdx (s : State) : (recordBadCmd s).byteIdx = s.byteIdx := rfl
@[simp] theorem recordBadCmd_latCnt (s : State) : (recordBadCmd s).latCnt = s.latCnt := rfl
@[simp] theorem recordBadCmd_bufValid (s : State) : (recordBadCmd s).bufValid = s.bufValid := rfl
@[simp] theorem recordBadCmd_bufWord (s : State) : (recordBadCmd s).bufWord = s.bufWord := rfl
@[simp] theorem recordBadCmd_doneQ (s : State) : (recordBadCmd s).doneQ = s.doneQ := rfl
@[simp] theorem recordBadCmd_ferrQ (s : State) : (recordBadCmd s).ferrQ = s.ferrQ := rfl
@[simp] theorem recordBadCmd_badCmdQ (s : State) : (recordBadCmd s).badCmdQ = true := rfl
@[simp] theorem recordBadCmd_bsByte (s : State) : (recordBadCmd s).bsByte = s.bsByte := rfl
@[simp] theorem recordBadCmd_bsLeft (s : State) : (recordBadCmd s).bsLeft = s.bsLeft := rfl
@[simp] theorem recordBadCmd_btPhase (s : State) : (recordBadCmd s).btPhase = s.btPhase := rfl
@[simp] theorem recordBadCmd_btCnt (s : State) : (recordBadCmd s).btCnt = s.btCnt := rfl
@[simp] theorem recordBadCmd_pinQ (s : State) : (recordBadCmd s).pinQ = s.pinQ := rfl

/-! startBit -/

@[simp] theorem startBit_cfg (b : Bool) (s : State) : (startBit b s).cfg = s.cfg := rfl
@[simp] theorem startBit_env (b : Bool) (s : State) : (startBit b s).env = s.env := rfl
@[simp] theorem startBit_fwState (b : Bool) (s : State) : (startBit b s).fwState = s.fwState := rfl
@[simp] theorem startBit_inFrame (b : Bool) (s : State) : (startBit b s).inFrame = s.inFrame := rfl
@[simp] theorem startBit_abort (b : Bool) (s : State) : (startBit b s).abort = s.abort := rfl
@[simp] theorem startBit_col (b : Bool) (s : State) : (startBit b s).col = s.col := rfl
@[simp] theorem startBit_byteIdx (b : Bool) (s : State) : (startBit b s).byteIdx = s.byteIdx := rfl
@[simp] theorem startBit_latCnt (b : Bool) (s : State) : (startBit b s).latCnt = s.latCnt := rfl
@[simp] theorem startBit_bufValid (b : Bool) (s : State) : (startBit b s).bufValid = s.bufValid := rfl
@[simp] theorem startBit_bufWord (b : Bool) (s : State) : (startBit b s).bufWord = s.bufWord := rfl
@[simp] theorem startBit_doneQ (b : Bool) (s : State) : (startBit b s).doneQ = s.doneQ := rfl
@[simp] theorem startBit_ferrQ (b : Bool) (s : State) : (startBit b s).ferrQ = s.ferrQ := rfl
@[simp] theorem startBit_badCmdQ (b : Bool) (s : State) : (startBit b s).badCmdQ = s.badCmdQ := rfl
@[simp] theorem startBit_bsByte (b : Bool) (s : State) : (startBit b s).bsByte = s.bsByte := rfl
@[simp] theorem startBit_bsLeft (b : Bool) (s : State) : (startBit b s).bsLeft = s.bsLeft := rfl
@[simp] theorem startBit_btPhase (b : Bool) (s : State) : (startBit b s).btPhase = .high := rfl
@[simp] theorem startBit_btCnt (b : Bool) (s : State) : (startBit b s).btCnt = s.cfg.highCyc b := rfl
@[simp] theorem startBit_pinQ (b : Bool) (s : State) : (startBit b s).pinQ = true := rfl

/-! countPhase -/

@[simp] theorem countPhase_cfg (s : State) : (countPhase s).cfg = s.cfg := rfl
@[simp] theorem countPhase_env (s : State) : (countPhase s).env = s.env := rfl
@[simp] theorem countPhase_fwState (s : State) : (countPhase s).fwState = s.fwState := rfl
@[simp] theorem countPhase_inFrame (s : State) : (countPhase s).inFrame = s.inFrame := rfl
@[simp] theorem countPhase_abort (s : State) : (countPhase s).abort = s.abort := rfl
@[simp] theorem countPhase_col (s : State) : (countPhase s).col = s.col := rfl
@[simp] theorem countPhase_byteIdx (s : State) : (countPhase s).byteIdx = s.byteIdx := rfl
@[simp] theorem countPhase_latCnt (s : State) : (countPhase s).latCnt = s.latCnt := rfl
@[simp] theorem countPhase_bufValid (s : State) : (countPhase s).bufValid = s.bufValid := rfl
@[simp] theorem countPhase_bufWord (s : State) : (countPhase s).bufWord = s.bufWord := rfl
@[simp] theorem countPhase_doneQ (s : State) : (countPhase s).doneQ = s.doneQ := rfl
@[simp] theorem countPhase_ferrQ (s : State) : (countPhase s).ferrQ = s.ferrQ := rfl
@[simp] theorem countPhase_badCmdQ (s : State) : (countPhase s).badCmdQ = s.badCmdQ := rfl
@[simp] theorem countPhase_bsByte (s : State) : (countPhase s).bsByte = s.bsByte := rfl
@[simp] theorem countPhase_bsLeft (s : State) : (countPhase s).bsLeft = s.bsLeft := rfl
@[simp] theorem countPhase_btPhase (s : State) : (countPhase s).btPhase = s.btPhase := rfl
@[simp] theorem countPhase_btCnt (s : State) : (countPhase s).btCnt = s.btCnt - 1 := rfl
@[simp] theorem countPhase_pinQ (s : State) : (countPhase s).pinQ = s.pinQ := rfl

/-! endHigh -/

@[simp] theorem endHigh_cfg (s : State) : (endHigh s).cfg = s.cfg := rfl
@[simp] theorem endHigh_env (s : State) : (endHigh s).env = s.env := rfl
@[simp] theorem endHigh_fwState (s : State) : (endHigh s).fwState = s.fwState := rfl
@[simp] theorem endHigh_inFrame (s : State) : (endHigh s).inFrame = s.inFrame := rfl
@[simp] theorem endHigh_abort (s : State) : (endHigh s).abort = s.abort := rfl
@[simp] theorem endHigh_col (s : State) : (endHigh s).col = s.col := rfl
@[simp] theorem endHigh_byteIdx (s : State) : (endHigh s).byteIdx = s.byteIdx := rfl
@[simp] theorem endHigh_latCnt (s : State) : (endHigh s).latCnt = s.latCnt := rfl
@[simp] theorem endHigh_bufValid (s : State) : (endHigh s).bufValid = s.bufValid := rfl
@[simp] theorem endHigh_bufWord (s : State) : (endHigh s).bufWord = s.bufWord := rfl
@[simp] theorem endHigh_doneQ (s : State) : (endHigh s).doneQ = s.doneQ := rfl
@[simp] theorem endHigh_ferrQ (s : State) : (endHigh s).ferrQ = s.ferrQ := rfl
@[simp] theorem endHigh_badCmdQ (s : State) : (endHigh s).badCmdQ = s.badCmdQ := rfl
@[simp] theorem endHigh_bsByte (s : State) : (endHigh s).bsByte = s.bsByte := rfl
@[simp] theorem endHigh_bsLeft (s : State) : (endHigh s).bsLeft = s.bsLeft := rfl
@[simp] theorem endHigh_btPhase (s : State) : (endHigh s).btPhase = .low := rfl
@[simp] theorem endHigh_btCnt (s : State) : (endHigh s).btCnt = s.cfg.lowCyc (s.bsByte.getLsbD 7) := rfl
@[simp] theorem endHigh_pinQ (s : State) : (endHigh s).pinQ = false := rfl

/-! loadByte -/

@[simp] theorem loadByte_cfg (v : Byte) (s : State) : (loadByte v s).cfg = s.cfg := rfl
@[simp] theorem loadByte_env (v : Byte) (s : State) : (loadByte v s).env = s.env := rfl
@[simp] theorem loadByte_fwState (v : Byte) (s : State) : (loadByte v s).fwState = s.fwState := rfl
@[simp] theorem loadByte_inFrame (v : Byte) (s : State) : (loadByte v s).inFrame = s.inFrame := rfl
@[simp] theorem loadByte_abort (v : Byte) (s : State) : (loadByte v s).abort = s.abort := rfl
@[simp] theorem loadByte_col (v : Byte) (s : State) : (loadByte v s).col = s.col := rfl
@[simp] theorem loadByte_byteIdx (v : Byte) (s : State) : (loadByte v s).byteIdx = s.byteIdx := rfl
@[simp] theorem loadByte_latCnt (v : Byte) (s : State) : (loadByte v s).latCnt = s.latCnt := rfl
@[simp] theorem loadByte_bufValid (v : Byte) (s : State) : (loadByte v s).bufValid = s.bufValid := rfl
@[simp] theorem loadByte_bufWord (v : Byte) (s : State) : (loadByte v s).bufWord = s.bufWord := rfl
@[simp] theorem loadByte_doneQ (v : Byte) (s : State) : (loadByte v s).doneQ = s.doneQ := rfl
@[simp] theorem loadByte_ferrQ (v : Byte) (s : State) : (loadByte v s).ferrQ = s.ferrQ := rfl
@[simp] theorem loadByte_badCmdQ (v : Byte) (s : State) : (loadByte v s).badCmdQ = s.badCmdQ := rfl
@[simp] theorem loadByte_bsByte (v : Byte) (s : State) : (loadByte v s).bsByte = v := rfl
@[simp] theorem loadByte_bsLeft (v : Byte) (s : State) : (loadByte v s).bsLeft = 8 := rfl
@[simp] theorem loadByte_btPhase (v : Byte) (s : State) : (loadByte v s).btPhase = .high := rfl
@[simp] theorem loadByte_btCnt (v : Byte) (s : State) : (loadByte v s).btCnt = s.cfg.highCyc (v.getLsbD 7) := rfl
@[simp] theorem loadByte_pinQ (v : Byte) (s : State) : (loadByte v s).pinQ = true := rfl

/-! nextBit -/

@[simp] theorem nextBit_cfg (s : State) : (nextBit s).cfg = s.cfg := rfl
@[simp] theorem nextBit_env (s : State) : (nextBit s).env = s.env := rfl
@[simp] theorem nextBit_fwState (s : State) : (nextBit s).fwState = s.fwState := rfl
@[simp] theorem nextBit_inFrame (s : State) : (nextBit s).inFrame = s.inFrame := rfl
@[simp] theorem nextBit_abort (s : State) : (nextBit s).abort = s.abort := rfl
@[simp] theorem nextBit_col (s : State) : (nextBit s).col = s.col := rfl
@[simp] theorem nextBit_byteIdx (s : State) : (nextBit s).byteIdx = s.byteIdx := rfl
@[simp] theorem nextBit_latCnt (s : State) : (nextBit s).latCnt = s.latCnt := rfl
@[simp] theorem nextBit_bufValid (s : State) : (nextBit s).bufValid = s.bufValid := rfl
@[simp] theorem nextBit_bufWord (s : State) : (nextBit s).bufWord = s.bufWord := rfl
@[simp] theorem nextBit_doneQ (s : State) : (nextBit s).doneQ = s.doneQ := rfl
@[simp] theorem nextBit_ferrQ (s : State) : (nextBit s).ferrQ = s.ferrQ := rfl
@[simp] theorem nextBit_badCmdQ (s : State) : (nextBit s).badCmdQ = s.badCmdQ := rfl
@[simp] theorem nextBit_bsByte (s : State) : (nextBit s).bsByte = s.bsByte <<< 1 := rfl
@[simp] theorem nextBit_bsLeft (s : State) : (nextBit s).bsLeft = s.bsLeft - 1 := rfl
@[simp] theorem nextBit_btPhase (s : State) : (nextBit s).btPhase = .high := rfl
@[simp] theorem nextBit_btCnt (s : State) : (nextBit s).btCnt = s.cfg.highCyc (s.bsByte.getLsbD 6) := rfl
@[simp] theorem nextBit_pinQ (s : State) : (nextBit s).pinQ = true := rfl

/-! nextByte -/

@[simp] theorem nextByte_cfg (s : State) : (nextByte s).cfg = s.cfg := rfl
@[simp] theorem nextByte_env (s : State) : (nextByte s).env = s.env := rfl
@[simp] theorem nextByte_fwState (s : State) : (nextByte s).fwState = s.fwState := rfl
@[simp] theorem nextByte_inFrame (s : State) : (nextByte s).inFrame = s.inFrame := rfl
@[simp] theorem nextByte_abort (s : State) : (nextByte s).abort = s.abort := rfl
@[simp] theorem nextByte_col (s : State) : (nextByte s).col = s.col := rfl
@[simp] theorem nextByte_byteIdx (s : State) : (nextByte s).byteIdx = s.byteIdx.next := rfl
@[simp] theorem nextByte_latCnt (s : State) : (nextByte s).latCnt = s.latCnt := rfl
@[simp] theorem nextByte_bufValid (s : State) : (nextByte s).bufValid = s.bufValid := rfl
@[simp] theorem nextByte_bufWord (s : State) : (nextByte s).bufWord = s.bufWord := rfl
@[simp] theorem nextByte_doneQ (s : State) : (nextByte s).doneQ = s.doneQ := rfl
@[simp] theorem nextByte_ferrQ (s : State) : (nextByte s).ferrQ = s.ferrQ := rfl
@[simp] theorem nextByte_badCmdQ (s : State) : (nextByte s).badCmdQ = s.badCmdQ := rfl
@[simp] theorem nextByte_bsByte (s : State) : (nextByte s).bsByte = colByte s.col s.byteIdx.next := rfl
@[simp] theorem nextByte_bsLeft (s : State) : (nextByte s).bsLeft = 8 := rfl
@[simp] theorem nextByte_btPhase (s : State) : (nextByte s).btPhase = .high := rfl
@[simp] theorem nextByte_btCnt (s : State) : (nextByte s).btCnt = s.cfg.highCyc ((colByte s.col s.byteIdx.next).getLsbD 7) := rfl
@[simp] theorem nextByte_pinQ (s : State) : (nextByte s).pinQ = true := rfl

/-! loadColour -/

@[simp] theorem loadColour_cfg (g r b : Byte) (s : State) : (loadColour g r b s).cfg = s.cfg := rfl
@[simp] theorem loadColour_env (g r b : Byte) (s : State) : (loadColour g r b s).env = s.env := rfl
@[simp] theorem loadColour_fwState (g r b : Byte) (s : State) : (loadColour g r b s).fwState = s.fwState := rfl
@[simp] theorem loadColour_inFrame (g r b : Byte) (s : State) : (loadColour g r b s).inFrame = s.inFrame := rfl
@[simp] theorem loadColour_abort (g r b : Byte) (s : State) : (loadColour g r b s).abort = s.abort := rfl
@[simp] theorem loadColour_col (g r b : Byte) (s : State) : (loadColour g r b s).col = colourOf g r b := rfl
@[simp] theorem loadColour_byteIdx (g r b : Byte) (s : State) : (loadColour g r b s).byteIdx = .green := rfl
@[simp] theorem loadColour_latCnt (g r b : Byte) (s : State) : (loadColour g r b s).latCnt = s.latCnt := rfl
@[simp] theorem loadColour_bufValid (g r b : Byte) (s : State) : (loadColour g r b s).bufValid = s.bufValid := rfl
@[simp] theorem loadColour_bufWord (g r b : Byte) (s : State) : (loadColour g r b s).bufWord = s.bufWord := rfl
@[simp] theorem loadColour_doneQ (g r b : Byte) (s : State) : (loadColour g r b s).doneQ = s.doneQ := rfl
@[simp] theorem loadColour_ferrQ (g r b : Byte) (s : State) : (loadColour g r b s).ferrQ = s.ferrQ := rfl
@[simp] theorem loadColour_badCmdQ (g r b : Byte) (s : State) : (loadColour g r b s).badCmdQ = s.badCmdQ := rfl
@[simp] theorem loadColour_bsByte (g r b : Byte) (s : State) : (loadColour g r b s).bsByte = g := rfl
@[simp] theorem loadColour_bsLeft (g r b : Byte) (s : State) : (loadColour g r b s).bsLeft = 8 := rfl
@[simp] theorem loadColour_btPhase (g r b : Byte) (s : State) : (loadColour g r b s).btPhase = .high := rfl
@[simp] theorem loadColour_btCnt (g r b : Byte) (s : State) : (loadColour g r b s).btCnt = s.cfg.highCyc (g.getLsbD 7) := rfl
@[simp] theorem loadColour_pinQ (g r b : Byte) (s : State) : (loadColour g r b s).pinQ = true := rfl

/-! takeWord -/

@[simp] theorem takeWord_cfg (s : State) : (takeWord s).cfg = s.cfg := rfl
@[simp] theorem takeWord_env (s : State) : (takeWord s).env = s.env := rfl
@[simp] theorem takeWord_fwState (s : State) : (takeWord s).fwState = s.fwState := rfl
@[simp] theorem takeWord_inFrame (s : State) : (takeWord s).inFrame = s.inFrame := rfl
@[simp] theorem takeWord_abort (s : State) : (takeWord s).abort = s.abort := rfl
@[simp] theorem takeWord_col (s : State) : (takeWord s).col = s.col := rfl
@[simp] theorem takeWord_byteIdx (s : State) : (takeWord s).byteIdx = s.byteIdx := rfl
@[simp] theorem takeWord_latCnt (s : State) : (takeWord s).latCnt = s.latCnt := rfl
@[simp] theorem takeWord_bufValid (s : State) : (takeWord s).bufValid = false := rfl
@[simp] theorem takeWord_bufWord (s : State) : (takeWord s).bufWord = s.bufWord := rfl
@[simp] theorem takeWord_doneQ (s : State) : (takeWord s).doneQ = s.doneQ := rfl
@[simp] theorem takeWord_ferrQ (s : State) : (takeWord s).ferrQ = s.ferrQ := rfl
@[simp] theorem takeWord_badCmdQ (s : State) : (takeWord s).badCmdQ = s.badCmdQ := rfl
@[simp] theorem takeWord_bsByte (s : State) : (takeWord s).bsByte = s.bsByte := rfl
@[simp] theorem takeWord_bsLeft (s : State) : (takeWord s).bsLeft = s.bsLeft := rfl
@[simp] theorem takeWord_btPhase (s : State) : (takeWord s).btPhase = s.btPhase := rfl
@[simp] theorem takeWord_btCnt (s : State) : (takeWord s).btCnt = s.btCnt := rfl
@[simp] theorem takeWord_pinQ (s : State) : (takeWord s).pinQ = s.pinQ := rfl

/-! stallFrame -/

@[simp] theorem stallFrame_cfg (s : State) : (stallFrame s).cfg = s.cfg := rfl
@[simp] theorem stallFrame_env (s : State) : (stallFrame s).env = s.env := rfl
@[simp] theorem stallFrame_fwState (s : State) : (stallFrame s).fwState = .idle := rfl
@[simp] theorem stallFrame_inFrame (s : State) : (stallFrame s).inFrame = s.inFrame := rfl
@[simp] theorem stallFrame_abort (s : State) : (stallFrame s).abort = s.abort := rfl
@[simp] theorem stallFrame_col (s : State) : (stallFrame s).col = s.col := rfl
@[simp] theorem stallFrame_byteIdx (s : State) : (stallFrame s).byteIdx = s.byteIdx := rfl
@[simp] theorem stallFrame_latCnt (s : State) : (stallFrame s).latCnt = s.latCnt := rfl
@[simp] theorem stallFrame_bufValid (s : State) : (stallFrame s).bufValid = s.bufValid := rfl
@[simp] theorem stallFrame_bufWord (s : State) : (stallFrame s).bufWord = s.bufWord := rfl
@[simp] theorem stallFrame_doneQ (s : State) : (stallFrame s).doneQ = s.doneQ := rfl
@[simp] theorem stallFrame_ferrQ (s : State) : (stallFrame s).ferrQ = s.ferrQ := rfl
@[simp] theorem stallFrame_badCmdQ (s : State) : (stallFrame s).badCmdQ = s.badCmdQ := rfl
@[simp] theorem stallFrame_bsByte (s : State) : (stallFrame s).bsByte = s.bsByte := rfl
@[simp] theorem stallFrame_bsLeft (s : State) : (stallFrame s).bsLeft = s.bsLeft := rfl
@[simp] theorem stallFrame_btPhase (s : State) : (stallFrame s).btPhase = s.btPhase := rfl
@[simp] theorem stallFrame_btCnt (s : State) : (stallFrame s).btCnt = s.btCnt := rfl
@[simp] theorem stallFrame_pinQ (s : State) : (stallFrame s).pinQ = s.pinQ := rfl

/-! startLatch -/

@[simp] theorem startLatch_cfg (s : State) : (startLatch s).cfg = s.cfg := rfl
@[simp] theorem startLatch_env (s : State) : (startLatch s).env = s.env := rfl
@[simp] theorem startLatch_fwState (s : State) : (startLatch s).fwState = .latch := rfl
@[simp] theorem startLatch_inFrame (s : State) : (startLatch s).inFrame = false := rfl
@[simp] theorem startLatch_abort (s : State) : (startLatch s).abort = s.abort := rfl
@[simp] theorem startLatch_col (s : State) : (startLatch s).col = s.col := rfl
@[simp] theorem startLatch_byteIdx (s : State) : (startLatch s).byteIdx = s.byteIdx := rfl
@[simp] theorem startLatch_latCnt (s : State) : (startLatch s).latCnt = s.cfg.trstCyc := rfl
@[simp] theorem startLatch_bufValid (s : State) : (startLatch s).bufValid = s.bufValid := rfl
@[simp] theorem startLatch_bufWord (s : State) : (startLatch s).bufWord = s.bufWord := rfl
@[simp] theorem startLatch_doneQ (s : State) : (startLatch s).doneQ = s.doneQ := rfl
@[simp] theorem startLatch_ferrQ (s : State) : (startLatch s).ferrQ = s.ferrQ := rfl
@[simp] theorem startLatch_badCmdQ (s : State) : (startLatch s).badCmdQ = s.badCmdQ := rfl
@[simp] theorem startLatch_bsByte (s : State) : (startLatch s).bsByte = s.bsByte := rfl
@[simp] theorem startLatch_bsLeft (s : State) : (startLatch s).bsLeft = s.bsLeft := rfl
@[simp] theorem startLatch_btPhase (s : State) : (startLatch s).btPhase = s.btPhase := rfl
@[simp] theorem startLatch_btCnt (s : State) : (startLatch s).btCnt = s.btCnt := rfl
@[simp] theorem startLatch_pinQ (s : State) : (startLatch s).pinQ = s.pinQ := rfl

/-! countLatch -/

@[simp] theorem countLatch_cfg (s : State) : (countLatch s).cfg = s.cfg := rfl
@[simp] theorem countLatch_env (s : State) : (countLatch s).env = s.env := rfl
@[simp] theorem countLatch_fwState (s : State) : (countLatch s).fwState = s.fwState := rfl
@[simp] theorem countLatch_inFrame (s : State) : (countLatch s).inFrame = s.inFrame := rfl
@[simp] theorem countLatch_abort (s : State) : (countLatch s).abort = s.abort := rfl
@[simp] theorem countLatch_col (s : State) : (countLatch s).col = s.col := rfl
@[simp] theorem countLatch_byteIdx (s : State) : (countLatch s).byteIdx = s.byteIdx := rfl
@[simp] theorem countLatch_latCnt (s : State) : (countLatch s).latCnt = s.latCnt - 1 := rfl
@[simp] theorem countLatch_bufValid (s : State) : (countLatch s).bufValid = s.bufValid := rfl
@[simp] theorem countLatch_bufWord (s : State) : (countLatch s).bufWord = s.bufWord := rfl
@[simp] theorem countLatch_doneQ (s : State) : (countLatch s).doneQ = s.doneQ := rfl
@[simp] theorem countLatch_ferrQ (s : State) : (countLatch s).ferrQ = s.ferrQ := rfl
@[simp] theorem countLatch_badCmdQ (s : State) : (countLatch s).badCmdQ = s.badCmdQ := rfl
@[simp] theorem countLatch_bsByte (s : State) : (countLatch s).bsByte = s.bsByte := rfl
@[simp] theorem countLatch_bsLeft (s : State) : (countLatch s).bsLeft = s.bsLeft := rfl
@[simp] theorem countLatch_btPhase (s : State) : (countLatch s).btPhase = s.btPhase := rfl
@[simp] theorem countLatch_btCnt (s : State) : (countLatch s).btCnt = s.btCnt := rfl
@[simp] theorem countLatch_pinQ (s : State) : (countLatch s).pinQ = s.pinQ := rfl

/-! endLatch -/

@[simp] theorem endLatch_cfg (s : State) : (endLatch s).cfg = s.cfg := rfl
@[simp] theorem endLatch_env (s : State) : (endLatch s).env = s.env := rfl
@[simp] theorem endLatch_fwState (s : State) : (endLatch s).fwState = .idle := rfl
@[simp] theorem endLatch_inFrame (s : State) : (endLatch s).inFrame = s.inFrame := rfl
@[simp] theorem endLatch_abort (s : State) : (endLatch s).abort = false := rfl
@[simp] theorem endLatch_col (s : State) : (endLatch s).col = s.col := rfl
@[simp] theorem endLatch_byteIdx (s : State) : (endLatch s).byteIdx = s.byteIdx := rfl
@[simp] theorem endLatch_latCnt (s : State) : (endLatch s).latCnt = s.latCnt := rfl
@[simp] theorem endLatch_bufValid (s : State) : (endLatch s).bufValid = s.bufValid := rfl
@[simp] theorem endLatch_bufWord (s : State) : (endLatch s).bufWord = s.bufWord := rfl
@[simp] theorem endLatch_doneQ (s : State) : (endLatch s).doneQ = true := rfl
@[simp] theorem endLatch_ferrQ (s : State) : (endLatch s).ferrQ = s.abort := rfl
@[simp] theorem endLatch_badCmdQ (s : State) : (endLatch s).badCmdQ = s.badCmdQ := rfl
@[simp] theorem endLatch_bsByte (s : State) : (endLatch s).bsByte = s.bsByte := rfl
@[simp] theorem endLatch_bsLeft (s : State) : (endLatch s).bsLeft = s.bsLeft := rfl
@[simp] theorem endLatch_btPhase (s : State) : (endLatch s).btPhase = s.btPhase := rfl
@[simp] theorem endLatch_btCnt (s : State) : (endLatch s).btCnt = s.btCnt := rfl
@[simp] theorem endLatch_pinQ (s : State) : (endLatch s).pinQ = s.pinQ := rfl

/-! edgeBase -/

@[simp] theorem edgeBase_cfg (s : State) : (edgeBase s).cfg = s.cfg := rfl
@[simp] theorem edgeBase_env (s : State) : (edgeBase s).env = s.env.tail := rfl
@[simp] theorem edgeBase_fwState (s : State) : (edgeBase s).fwState = s.fwState := rfl
@[simp] theorem edgeBase_inFrame (s : State) : (edgeBase s).inFrame = s.inFrame := rfl
@[simp] theorem edgeBase_abort (s : State) : (edgeBase s).abort = s.abort := rfl
@[simp] theorem edgeBase_col (s : State) : (edgeBase s).col = s.col := rfl
@[simp] theorem edgeBase_byteIdx (s : State) : (edgeBase s).byteIdx = s.byteIdx := rfl
@[simp] theorem edgeBase_latCnt (s : State) : (edgeBase s).latCnt = s.latCnt := rfl
@[simp] theorem edgeBase_bufValid (s : State) : (edgeBase s).bufValid = (s.bufValid || s.pins.inValid) := rfl
@[simp] theorem edgeBase_bufWord (s : State) : (edgeBase s).bufWord = if s.pins.inValid = true ∧ s.bufValid = false then s.pins.inData else s.bufWord := rfl
@[simp] theorem edgeBase_doneQ (s : State) : (edgeBase s).doneQ = false := rfl
@[simp] theorem edgeBase_ferrQ (s : State) : (edgeBase s).ferrQ = false := rfl
@[simp] theorem edgeBase_badCmdQ (s : State) : (edgeBase s).badCmdQ = s.badCmdQ := rfl
@[simp] theorem edgeBase_bsByte (s : State) : (edgeBase s).bsByte = s.bsByte := rfl
@[simp] theorem edgeBase_bsLeft (s : State) : (edgeBase s).bsLeft = s.bsLeft := rfl
@[simp] theorem edgeBase_btPhase (s : State) : (edgeBase s).btPhase = s.btPhase := rfl
@[simp] theorem edgeBase_btCnt (s : State) : (edgeBase s).btCnt = s.btCnt := rfl
@[simp] theorem edgeBase_pinQ (s : State) : (edgeBase s).pinQ = s.pinQ := rfl

/-! padAbort -/

@[simp] theorem padAbort_cfg (s : State) : (padAbort s).cfg = s.cfg := rfl
@[simp] theorem padAbort_env (s : State) : (padAbort s).env = s.env := rfl
@[simp] theorem padAbort_fwState (s : State) : (padAbort s).fwState = .idle := rfl
@[simp] theorem padAbort_inFrame (s : State) : (padAbort s).inFrame = s.inFrame := rfl
@[simp] theorem padAbort_abort (s : State) : (padAbort s).abort = true := rfl
@[simp] theorem padAbort_col (s : State) : (padAbort s).col = s.col := rfl
@[simp] theorem padAbort_byteIdx (s : State) : (padAbort s).byteIdx = s.byteIdx := rfl
@[simp] theorem padAbort_latCnt (s : State) : (padAbort s).latCnt = s.latCnt := rfl
@[simp] theorem padAbort_bufValid (s : State) : (padAbort s).bufValid = s.bufValid := rfl
@[simp] theorem padAbort_bufWord (s : State) : (padAbort s).bufWord = s.bufWord := rfl
@[simp] theorem padAbort_doneQ (s : State) : (padAbort s).doneQ = s.doneQ := rfl
@[simp] theorem padAbort_ferrQ (s : State) : (padAbort s).ferrQ = s.ferrQ := rfl
@[simp] theorem padAbort_badCmdQ (s : State) : (padAbort s).badCmdQ = s.badCmdQ := rfl
@[simp] theorem padAbort_bsByte (s : State) : (padAbort s).bsByte = s.bsByte := rfl
@[simp] theorem padAbort_bsLeft (s : State) : (padAbort s).bsLeft = s.bsLeft := rfl
@[simp] theorem padAbort_btPhase (s : State) : (padAbort s).btPhase = s.btPhase := rfl
@[simp] theorem padAbort_btCnt (s : State) : (padAbort s).btCnt = s.btCnt := rfl
@[simp] theorem padAbort_pinQ (s : State) : (padAbort s).pinQ = false := rfl

/-! acceptOffered -/

@[simp] theorem acceptOffered_cfg (s : State) : (acceptOffered s).cfg = s.cfg := by
  unfold acceptOffered; split <;> rfl
@[simp] theorem acceptOffered_env (s : State) : (acceptOffered s).env = s.env := by
  unfold acceptOffered; split <;> rfl
@[simp] theorem acceptOffered_fwState (s : State) : (acceptOffered s).fwState = s.fwState := by
  unfold acceptOffered; split <;> rfl
@[simp] theorem acceptOffered_inFrame (s : State) : (acceptOffered s).inFrame = s.inFrame := by
  unfold acceptOffered; split <;> rfl
@[simp] theorem acceptOffered_abort (s : State) : (acceptOffered s).abort = s.abort := by
  unfold acceptOffered; split <;> rfl
@[simp] theorem acceptOffered_col (s : State) : (acceptOffered s).col = s.col := by
  unfold acceptOffered; split <;> rfl
@[simp] theorem acceptOffered_byteIdx (s : State) : (acceptOffered s).byteIdx = s.byteIdx := by
  unfold acceptOffered; split <;> rfl
@[simp] theorem acceptOffered_latCnt (s : State) : (acceptOffered s).latCnt = s.latCnt := by
  unfold acceptOffered; split <;> rfl
@[simp] theorem acceptOffered_bufValid (s : State) : (acceptOffered s).bufValid = (s.bufValid || s.accepts) := by
  unfold acceptOffered; split <;> simp_all
@[simp] theorem acceptOffered_bufWord (s : State) :
    (acceptOffered s).bufWord = if s.accepts then s.pins.inData else s.bufWord := by
  unfold acceptOffered; split <;> rfl
@[simp] theorem acceptOffered_doneQ (s : State) : (acceptOffered s).doneQ = s.doneQ := by
  unfold acceptOffered; split <;> rfl
@[simp] theorem acceptOffered_ferrQ (s : State) : (acceptOffered s).ferrQ = s.ferrQ := by
  unfold acceptOffered; split <;> rfl
@[simp] theorem acceptOffered_badCmdQ (s : State) : (acceptOffered s).badCmdQ = s.badCmdQ := by
  unfold acceptOffered; split <;> rfl
@[simp] theorem acceptOffered_bsByte (s : State) : (acceptOffered s).bsByte = s.bsByte := by
  unfold acceptOffered; split <;> rfl
@[simp] theorem acceptOffered_bsLeft (s : State) : (acceptOffered s).bsLeft = s.bsLeft := by
  unfold acceptOffered; split <;> rfl
@[simp] theorem acceptOffered_btPhase (s : State) : (acceptOffered s).btPhase = s.btPhase := by
  unfold acceptOffered; split <;> rfl
@[simp] theorem acceptOffered_btCnt (s : State) : (acceptOffered s).btCnt = s.btCnt := by
  unfold acceptOffered; split <;> rfl
@[simp] theorem acceptOffered_pinQ (s : State) : (acceptOffered s).pinQ = s.pinQ := by
  unfold acceptOffered; split <;> rfl

/-! resetWith: the reset values (R38) -/

@[simp] theorem resetWith_cfg (c : Config) (e : List Inputs) : (State.resetWith c e).cfg = c := rfl
@[simp] theorem resetWith_env (c : Config) (e : List Inputs) : (State.resetWith c e).env = e := rfl
@[simp] theorem resetWith_fwState (c : Config) (e : List Inputs) : (State.resetWith c e).fwState = .idle := rfl
@[simp] theorem resetWith_inFrame (c : Config) (e : List Inputs) : (State.resetWith c e).inFrame = false := rfl
@[simp] theorem resetWith_abort (c : Config) (e : List Inputs) : (State.resetWith c e).abort = false := rfl
@[simp] theorem resetWith_col (c : Config) (e : List Inputs) : (State.resetWith c e).col = 0#24 := rfl
@[simp] theorem resetWith_byteIdx (c : Config) (e : List Inputs) : (State.resetWith c e).byteIdx = .green := rfl
@[simp] theorem resetWith_latCnt (c : Config) (e : List Inputs) : (State.resetWith c e).latCnt = 0 := rfl
@[simp] theorem resetWith_bufValid (c : Config) (e : List Inputs) : (State.resetWith c e).bufValid = false := rfl
@[simp] theorem resetWith_bufWord (c : Config) (e : List Inputs) : (State.resetWith c e).bufWord = 0#26 := rfl
@[simp] theorem resetWith_doneQ (c : Config) (e : List Inputs) : (State.resetWith c e).doneQ = false := rfl
@[simp] theorem resetWith_ferrQ (c : Config) (e : List Inputs) : (State.resetWith c e).ferrQ = false := rfl
@[simp] theorem resetWith_badCmdQ (c : Config) (e : List Inputs) : (State.resetWith c e).badCmdQ = false := rfl
@[simp] theorem resetWith_bsByte (c : Config) (e : List Inputs) : (State.resetWith c e).bsByte = 0#8 := rfl
@[simp] theorem resetWith_bsLeft (c : Config) (e : List Inputs) : (State.resetWith c e).bsLeft = 0 := rfl
@[simp] theorem resetWith_btPhase (c : Config) (e : List Inputs) : (State.resetWith c e).btPhase = .low := rfl
@[simp] theorem resetWith_btCnt (c : Config) (e : List Inputs) : (State.resetWith c e).btCnt = 0 := rfl
@[simp] theorem resetWith_pinQ (c : Config) (e : List Inputs) : (State.resetWith c e).pinQ = false := rfl

end Sys2Proof.Machine
end

