-- ==== Sys2Proof/Laws/Ops.lean ====
section
/-! SUPPORT. Sys2Proof/Laws/Ops.lean: what the shared parts of an edge do: the inputs and the contexts they read, the
unconditional part of an edge, a command's effect. -/

namespace Sys2Proof.Machine

/-! ## The cycle's inputs: a function of `env` alone -/

theorem pins_congr {s t : State} (h : s.env = t.env) : s.pins = t.pins := by simp [State.pins, h]

@[simp] theorem clearResult_pins (s : State) : (clearResult s).pins = s.pins := rfl

@[simp] theorem acceptOffered_pins (s : State) : (acceptOffered s).pins = s.pins := pins_congr (by simp)

@[simp] theorem clearResult_accepts (s : State) : (clearResult s).accepts = s.accepts := rfl

theorem accepts_iff (s : State) :
    s.accepts = true ↔ s.pins.inValid = true ∧ s.bufValid = false ∧ s.pins.rst = false := by
  simp [State.accepts, State.inReadyO]

/-- Acceptance and consumption never meet (R81). -/
@[simp] theorem accepts_of_bufValid {s : State} (h : s.bufValid = true) : s.accepts = false := by
  simp [State.accepts, State.inReadyO, h]

/-! ## The unconditional part of an edge (R81, R91) -/

@[simp] theorem openEdge_cfg (s : State) : (openEdge s).cfg = s.cfg := by simp [openEdge]
@[simp] theorem openEdge_env (s : State) : (openEdge s).env = s.env := by simp [openEdge]
@[simp] theorem openEdge_fwState (s : State) : (openEdge s).fwState = s.fwState := by simp [openEdge]
@[simp] theorem openEdge_inFrame (s : State) : (openEdge s).inFrame = s.inFrame := by simp [openEdge]
@[simp] theorem openEdge_abort (s : State) : (openEdge s).abort = s.abort := by simp [openEdge]
@[simp] theorem openEdge_col (s : State) : (openEdge s).col = s.col := by simp [openEdge]
@[simp] theorem openEdge_byteIdx (s : State) : (openEdge s).byteIdx = s.byteIdx := by simp [openEdge]
@[simp] theorem openEdge_latCnt (s : State) : (openEdge s).latCnt = s.latCnt := by simp [openEdge]
@[simp] theorem openEdge_badCmdQ (s : State) : (openEdge s).badCmdQ = s.badCmdQ := by simp [openEdge]
@[simp] theorem openEdge_bsByte (s : State) : (openEdge s).bsByte = s.bsByte := by simp [openEdge]
@[simp] theorem openEdge_bsLeft (s : State) : (openEdge s).bsLeft = s.bsLeft := by simp [openEdge]
@[simp] theorem openEdge_btPhase (s : State) : (openEdge s).btPhase = s.btPhase := by simp [openEdge]
@[simp] theorem openEdge_btCnt (s : State) : (openEdge s).btCnt = s.btCnt := by simp [openEdge]
@[simp] theorem openEdge_pinQ (s : State) : (openEdge s).pinQ = s.pinQ := by simp [openEdge]
@[simp] theorem openEdge_doneQ (s : State) : (openEdge s).doneQ = false := by simp [openEdge]
@[simp] theorem openEdge_ferrQ (s : State) : (openEdge s).ferrQ = false := by simp [openEdge]
@[simp] theorem openEdge_bufValid (s : State) : (openEdge s).bufValid = (s.bufValid || s.accepts) := by simp [openEdge]
@[simp] theorem openEdge_bufWord (s : State) :
    (openEdge s).bufWord = if s.accepts then s.pins.inData else s.bufWord := by
  rw [openEdge, acceptOffered_bufWord]; rfl
@[simp] theorem openEdge_pins (s : State) : (openEdge s).pins = s.pins := pins_congr (by simp)

/-- With a word buffered, nothing is accepted. -/
theorem openEdge_of_bufValid {s : State} (h : s.bufValid = true) : openEdge s = clearResult s := by
  simp [openEdge, acceptOffered, h]

/-! ## The context of an edge (R82) -/

@[simp] theorem openEdge_padFails (s : State) : (openEdge s).padFails = s.padFails := by simp [State.padFails]

@[simp] theorem openEdge_context (s : State) : (openEdge s).context = s.context := by
  simp [State.context, State.colDone, State.bsDone, State.btFin]

@[simp] theorem clearResult_context (s : State) : (clearResult s).context = s.context := rfl

theorem context_of_rst {s : State} (h : s.pins.rst = true) : s.context = none := by simp [State.context, h]

theorem context_idle {s : State} (hr : s.pins.rst = false) (hf : s.fwState = .idle) : s.context = some .inIdle := by
  simp [State.context, hr, hf]

theorem context_latch {s : State} (hf : s.fwState = .latch) : s.context = none := by
  unfold State.context State.colDone State.bsDone State.btFin
  simp [hf]

theorem context_eq_inIdle {s : State} : s.context = some .inIdle ↔ s.pins.rst = false ∧ s.fwState = .idle := by
  unfold State.context
  by_cases hr : s.pins.rst = true
  · simp [hr]
  · by_cases hf : s.fwState = .idle
    · simp [hr, hf]
    · by_cases hc : s.colDone = true <;> simp [hf, hc]

/-- Context (b) in full (R69, R77, R82). -/
theorem context_eq_atColourEnd {s : State} : s.context = some .atColourEnd ↔
    s.pins.rst = false ∧ s.fwState = .send ∧ s.padFails = false ∧ s.btPhase = .low ∧ s.btCnt < 2 ∧ s.bsLeft < 2 ∧
      s.byteIdx = .blue := by
  unfold State.context State.colDone State.bsDone State.btFin
  by_cases hr : s.pins.rst = true
  · simp [hr]
  · cases hf : s.fwState <;> simp [hr]
    tauto

/-- A command is consumed exactly where the edge's rule says so. -/
theorem edgeRule_eq_consume {s : State} (hr : s.pins.rst = false) :
    s.edgeRule = .consume ↔ s.bufValid = true ∧ s.context.isSome = true := by
  cases hf : s.fwState with
  | idle => rw [context_idle hr hf]; simp [State.edgeRule, hf]
  | latch => rw [context_latch hf]; simp [State.edgeRule, hf]; split <;> simp
  | send =>
    have hc : s.context.isSome = true ↔ s.context = some .atColourEnd := by
      constructor
      · intro h
        obtain ⟨c, hc⟩ := Option.isSome_iff_exists.mp h
        cases c with
        | inIdle => rw [context_eq_inIdle, hf] at hc; simp at hc
        | atColourEnd => exact hc
      · intro h; simp [h]
    rw [hc, context_eq_atColourEnd]
    unfold State.edgeRule
    rw [hf]
    cases hp : s.padFails <;> cases hb : s.btPhase <;> simp [hr] <;> grind

/-! ## A command's effect -/

/-- The effect of each command in a context: the right sides of R84 to R87. -/
def effectOf : Instr → Context → State → State
  | .color g r b => colorEffect g r b
  | .endFrame _ => endEffect
  | .rsvd2 _ => rejectWord
  | .rsvd3 _ => rejectWord

/-- A command always answers a next state. -/
theorem exec_eq (i : Instr) (s : State) : exec i s = .next (consumeAs (effectOf i) s) := by cases i <;> rfl

theorem consumeAs_some {e : Context → State → State} {s : State} {c : Context} (h : s.context = some c) :
    consumeAs e s = e c s := by simp [consumeAs, h]

theorem consumeAs_none {e : Context → State → State} {s : State} (h : s.context = none) : consumeAs e s = s := by
  simp [consumeAs, h]

/-- No command writes the configuration, the inputs, the buffered word or the frame's result. -/
theorem effectOf_frame (i : Instr) (c : Context) (s : State) :
    (effectOf i c s).cfg = s.cfg ∧ (effectOf i c s).env = s.env ∧ (effectOf i c s).bufWord = s.bufWord ∧
      (effectOf i c s).doneQ = s.doneQ ∧ (effectOf i c s).ferrQ = s.ferrQ ∧ (effectOf i c s).abort = s.abort := by
  cases i <;> cases c <;> simp [effectOf, colorEffect, endEffect, rejectWord]
  split <;> simp

/-- Every command empties the buffer (R82). -/
theorem effectOf_bufValid (i : Instr) (c : Context) (s : State) : (effectOf i c s).bufValid = false := by
  cases i <;> cases c <;> simp [effectOf, colorEffect, endEffect, rejectWord]
  split <;> simp

end Sys2Proof.Machine
end

