-- ==== Sys2Proof/Laws/PerInstr.lean ====
section
/-! SUPPORT. Sys2Proof/Laws/PerInstr.lean: the per-instruction family OpcodeField: a command's word carries the `op` of its
row of opcode_table.json, and its data below it (R57, R58). -/

namespace Sys2Proof.Laws.OpcodeField

/-- The word of `i` has the row's `match` under the row's `mask`, and the command's data in bits [23:0]. -/
def Statement (i : Instr) : Prop :=
  (opField (encode i) = match i with
    | .color _ _ _ => 0b00#2
    | .endFrame _ => 0b01#2
    | .rsvd2 _ => 0b10#2
    | .rsvd3 _ => 0b11#2) ∧
  dataField (encode i) = i.data

theorem color (g r b : Byte) : Statement (.color g r b) := ⟨opField_encode _, dataField_encode _⟩

theorem endFrame (x : BitVec 24) : Statement (.endFrame x) := ⟨opField_encode _, dataField_encode _⟩

theorem rsvd2 (x : BitVec 24) : Statement (.rsvd2 x) := ⟨opField_encode _, dataField_encode _⟩

theorem rsvd3 (x : BitVec 24) : Statement (.rsvd3 x) := ⟨opField_encode _, dataField_encode _⟩

end Sys2Proof.Laws.OpcodeField
end

