-- ==== Sys2Proof/Laws/Step.lean ====
section
/-! SUPPORT. Sys2Proof/Laws/Step.lean: what one step can do, said once: `step_eq` gives the step of a legal block as one total
function of the state, and runs and traces peel off one step at a time. -/

namespace Sys2Proof.Machine

/-- The state an edge's rule leaves (R93), without the outcome around it. -/
def ruleEffect (r : EdgeRule) (s : State) : State :=
  match r with
  | .wait => s
  | .consume => consumeAs (effectOf (decode s.bufWord)) s
  | .padAbort => padAbort s
  | .countPhase => countPhase s
  | .endHigh => endHigh s
  | .nextBit => nextBit s
  | .nextByte => nextByte s
  | .stall => stallFrame s
  | .countLatch => countLatch s
  | .endLatch => endLatch s

theorem applyRule_eq (r : EdgeRule) (s : State) : applyRule r s = .next (ruleEffect r s) := by
  cases r <;> simp [applyRule, ruleEffect, exec_eq]

/-- The state after one edge of a legal block. -/
def stepState (s : State) : State :=
  nextCycle (if s.pins.rst then resetRegisters s else ruleEffect s.edgeRule (openEdge s))

theorem clockEdge_eq (s : State) : clockEdge s = .next (stepState s) := by
  unfold clockEdge stepState
  split <;> simp [applyRule_eq, mapNext]

theorem step_eq {s : State} (h : s.cfg.legal = true) : step s = .next (stepState s) := by
  simp [step, h, clockEdge_eq]

theorem step_illegal {s : State} (h : s.cfg.legal = false) : step s = .refused .illegalConfiguration := by
  simp [step, h]

/-- All a step can answer. -/
theorem step_next_iff {s t : State} : step s = .next t ↔ s.cfg.legal = true ∧ t = stepState s := by
  cases h : s.cfg.legal
  · simp [step_illegal h]
  · simp [step_eq h, eq_comm]

@[simp] theorem resetRegisters_eq (s : State) : resetRegisters s = State.resetWith s.cfg s.env := rfl

theorem stepState_of_rst {s : State} (h : s.pins.rst = true) :
    stepState s = State.resetWith s.cfg s.env.tail := by simp [stepState, h, nextCycle, State.resetWith]

theorem stepState_of_not_rst {s : State} (h : s.pins.rst = false) :
    stepState s = nextCycle (ruleEffect s.edgeRule (openEdge s)) := by simp [stepState, h]

/-- No rule writes the configuration or the inputs. -/
theorem ruleEffect_frame (r : EdgeRule) (s : State) :
    (ruleEffect r s).cfg = s.cfg ∧ (ruleEffect r s).env = s.env := by
  cases r <;> simp [ruleEffect]
  unfold consumeAs
  split
  · exact ⟨(effectOf_frame _ _ _).1, (effectOf_frame _ _ _).2.1⟩
  · simp

@[simp] theorem stepState_cfg (s : State) : (stepState s).cfg = s.cfg := by
  unfold stepState
  split <;> simp [ruleEffect_frame]

@[simp] theorem stepState_env (s : State) : (stepState s).env = s.env.tail := by
  unfold stepState
  split <;> simp [ruleEffect_frame]

/-! ## The rule of an edge -/

theorem edgeRule_idle {s : State} (h : s.fwState = .idle) :
    s.edgeRule = if s.bufValid then .consume else .wait := by simp [State.edgeRule, h]

theorem edgeRule_latch {s : State} (h : s.fwState = .latch) :
    s.edgeRule = if 2 ≤ s.latCnt then .countLatch else .endLatch := by simp [State.edgeRule, h]

theorem edgeRule_abort {s : State} (h : s.fwState = .send) (hp : s.padFails = true) : s.edgeRule = .padAbort := by
  simp [State.edgeRule, h, hp]

theorem edgeRule_high {s : State} (h : s.fwState = .send) (hp : s.padFails = false) (hb : s.btPhase = .high) :
    s.edgeRule = if 2 ≤ s.btCnt then .countPhase else .endHigh := by simp [State.edgeRule, h, hp, hb]

theorem edgeRule_low {s : State} (h : s.fwState = .send) (hp : s.padFails = false) (hb : s.btPhase = .low) :
    s.edgeRule =
      if 2 ≤ s.btCnt then .countPhase
      else if 2 ≤ s.bsLeft then .nextBit
      else if s.byteIdx ≠ .blue then .nextByte
      else if s.bufValid then .consume
      else .stall := by simp [State.edgeRule, h, hp, hb]

/-! ## The rules' own words and the model's signals -/

theorem padFails_iff_of_send {s : State} (h : s.fwState = .send) : s.padFails = false ↔ NoPadAbort s := by
  unfold State.padFails NoPadAbort
  cases hc : s.cfg.onPinError <;> simp [h]

theorem inIdle_iff {s : State} : InIdle s ↔ s.context = some .inIdle := context_eq_inIdle.symm

theorem atColourEnd_iff {s : State} : AtColourEnd s ↔ s.context = some .atColourEnd := by
  rw [context_eq_atColourEnd]
  unfold AtColourEnd
  constructor
  · rintro ⟨h1, h2, h3, h4⟩; exact ⟨h1, h2, (padFails_iff_of_send h2).2 h3, h4⟩
  · rintro ⟨h1, h2, h3, h4⟩; exact ⟨h1, h2, (padFails_iff_of_send h2).1 h3, h4⟩

/-- A word may be consumed at this edge. -/
theorem consumable_iff {s : State} : InIdle s ∨ AtColourEnd s ↔ s.context.isSome = true := by
  rw [inIdle_iff, atColourEnd_iff]
  cases h : s.context with
  | none => simp
  | some c => cases c <;> simp

theorem not_consumable_iff {s : State} : ¬ (InIdle s ∨ AtColourEnd s) ↔ s.context = none := by
  rw [consumable_iff]
  simp

/-- The unconditional part of an edge without reset is what R91, R81 and R15 say. -/
theorem edgeBase_eq {s : State} (h : s.pins.rst = false) : nextCycle (openEdge s) = edgeBase s := by
  have ha : s.accepts = true ↔ s.pins.inValid = true ∧ s.bufValid = false := by rw [accepts_iff]; simp [h]
  apply State.ext <;> simp [ha]
  rw [Bool.eq_iff_iff]
  simp [ha]
  cases s.bufValid <;> simp

/-- What an edge writes to the buffer. -/
theorem stepState_bufValid {s : State} (h : s.pins.rst = false) :
    (stepState s).bufValid = ((s.bufValid && !s.context.isSome) || s.accepts) := by
  rw [stepState_of_not_rst h, nextCycle_bufValid]
  by_cases hc : s.edgeRule = .consume
  · obtain ⟨hb, hx⟩ := (edgeRule_eq_consume h).1 hc
    obtain ⟨c, hc'⟩ := Option.isSome_iff_exists.mp hx
    rw [hc]
    simp only [ruleEffect]
    rw [consumeAs_some (by simpa using hc'), effectOf_bufValid]
    simp [hb, hc']
  · have hn : (s.bufValid && s.context.isSome) = false := by
      by_contra hh
      simp only [Bool.not_eq_false, Bool.and_eq_true] at hh
      exact hc ((edgeRule_eq_consume h).2 hh)
    have he : (ruleEffect s.edgeRule (openEdge s)).bufValid = (openEdge s).bufValid := by
      cases hr : s.edgeRule <;> simp [ruleEffect] at hc ⊢
      exact absurd hr hc
    rw [he, openEdge_bufValid]
    cases h1 : s.bufValid <;> cases h2 : s.context.isSome <;> simp_all

theorem stepState_bufWord {s : State} (h : s.pins.rst = false) :
    (stepState s).bufWord = if s.accepts then s.pins.inData else s.bufWord := by
  rw [stepState_of_not_rst h, nextCycle_bufWord, ← openEdge_bufWord]
  cases s.edgeRule <;> simp [ruleEffect]
  unfold consumeAs
  split
  · rw [(effectOf_frame _ _ _).2.2.1]; simp
  · simp

/-! ## Runs and traces -/

@[simp] theorem run_zero (s : State) : run 0 s = .next s := rfl

theorem run_succ {s : State} (h : s.cfg.legal = true) (n : Nat) : run (n + 1) s = run n (stepState s) := by
  simp [run, step_eq h]

@[simp] theorem lineTrace_zero (s : State) : lineTrace 0 s = [] := rfl

theorem lineTrace_succ {s : State} (h : s.cfg.legal = true) (n : Nat) :
    lineTrace (n + 1) s = s.pinQ :: lineTrace n (stepState s) := by
  simp [lineTrace, step_eq h, State.doutO]

/-- The states of a legal block's run, without the outcome around them. -/
def stepStates : Nat → State → State
  | 0, s => s
  | n + 1, s => stepStates n (stepState s)

@[simp] theorem stepStates_cfg (n : Nat) (s : State) : (stepStates n s).cfg = s.cfg := by
  induction n generalizing s with
  | zero => rfl
  | succ n ih => simp [stepStates, ih]

theorem stepStates_env (n : Nat) (s : State) : (stepStates n s).env = s.env.drop n := by
  induction n generalizing s with
  | zero => rfl
  | succ n ih => rw [stepStates, ih, stepState_env, List.drop_tail]

theorem run_eq {s : State} (h : s.cfg.legal = true) (n : Nat) : run n s = .next (stepStates n s) := by
  induction n generalizing s with
  | zero => rfl
  | succ n ih => rw [run_succ h, ih (by simpa using h)]; rfl

theorem stepStates_add (m n : Nat) (s : State) : stepStates (m + n) s = stepStates n (stepStates m s) := by
  induction m generalizing s with
  | zero => simp [stepStates]
  | succ m ih => rw [Nat.succ_add]; simp [stepStates, ih]

theorem lineTrace_add {s : State} (h : s.cfg.legal = true) (m n : Nat) :
    lineTrace (m + n) s = lineTrace m s ++ lineTrace n (stepStates m s) := by
  induction m generalizing s with
  | zero => simp [stepStates]
  | succ m ih =>
    rw [Nat.succ_add, lineTrace_succ h, lineTrace_succ h, ih (by simpa using h)]
    rfl

/-- The run of this file is the host's. -/
theorem run_eq_core_run (n : Nat) (s : State) : run n s = Host.Core.run Sys2Proof.core n s := by
  induction n generalizing s with
  | zero => rfl
  | succ n ih =>
    have e := Host.Core.run.eq_2 Sys2Proof.core s n
    refine Eq.trans ?_ e.symm
    have h : Sys2Proof.core.step s = step s := rfl
    rw [run, h]
    cases step s with
    | next t => exact ih t
    | fault r => rfl
    | refused r => rfl

/-! ## The environment's premises, one cycle at a time -/

theorem NoReset.head {n : Nat} {s : State} (h : NoReset (n + 1) s) : s.pins.rst = false := by
  unfold State.pins
  cases he : s.env with
  | nil => rfl
  | cons p ps => exact h p (by simp [he])

theorem NoReset.next {n : Nat} {s : State} (h : NoReset (n + 1) s) : NoReset n (stepState s) := by
  intro p hp
  apply h p
  cases he : s.env with
  | nil => simp [he] at hp
  | cons q qs => simp [he] at hp; simp [hp]

theorem Undisturbed.noReset {n : Nat} {s : State} (h : Undisturbed n s) : NoReset n s := fun p hp => (h p hp).1

theorem Undisturbed.head {n : Nat} {s : State} (h : Undisturbed (n + 1) s) :
    s.pins.rst = false ∧ s.padFails = false := by
  refine ⟨h.noReset.head, ?_⟩
  unfold State.padFails State.pins
  cases he : s.env with
  | nil => simp [Inputs.quiet]
  | cons p ps =>
    have := (h p (by simp [he])).2
    by_cases hc : s.cfg.onPinError = .abort
    · simp [this hc]
    · simp [hc]

theorem Undisturbed.next {n : Nat} {s : State} (h : Undisturbed (n + 1) s) : Undisturbed n (stepState s) := by
  intro p hp
  rw [stepState_cfg]
  apply h p
  cases he : s.env with
  | nil => simp [he] at hp
  | cons q qs => simp [he] at hp; simp [hp]

end Sys2Proof.Machine
end

