-- ==== Sys2Proof/Laws/Wire.lean ====
section
/-! SUPPORT. Sys2Proof/Laws/Wire.lean: the edges a bit on the wire is made of, one lemma an edge, and the runs they are
chained over. -/

namespace Sys2Proof.Machine

/-! ## Registers that an edge of the bit timer leaves alone -/

/-- Agreement on the registers of the frame writer that no edge inside a byte writes. -/
structure KeepsFrame (s t : State) : Prop where
  cfg : t.cfg = s.cfg
  fwState : t.fwState = s.fwState
  byteIdx : t.byteIdx = s.byteIdx
  col : t.col = s.col
  inFrame : t.inFrame = s.inFrame
  abort : t.abort = s.abort
  badCmdQ : t.badCmdQ = s.badCmdQ

/-- And on the serializer's registers, which no edge inside a bit writes. -/
structure KeepsBit (s t : State) : Prop extends KeepsFrame s t where
  bsByte : t.bsByte = s.bsByte
  bsLeft : t.bsLeft = s.bsLeft

theorem KeepsFrame.trans {s t u : State} (a : KeepsFrame s t) (b : KeepsFrame t u) : KeepsFrame s u :=
  ⟨b.cfg.trans a.cfg, b.fwState.trans a.fwState, b.byteIdx.trans a.byteIdx, b.col.trans a.col,
    b.inFrame.trans a.inFrame, b.abort.trans a.abort, b.badCmdQ.trans a.badCmdQ⟩

theorem KeepsBit.refl (s : State) : KeepsBit s s := ⟨⟨rfl, rfl, rfl, rfl, rfl, rfl, rfl⟩, rfl, rfl⟩

theorem KeepsBit.trans {s t u : State} (a : KeepsBit s t) (b : KeepsBit t u) : KeepsBit s u :=
  ⟨a.toKeepsFrame.trans b.toKeepsFrame, b.bsByte.trans a.bsByte, b.bsLeft.trans a.bsLeft⟩

/-! ## Premises over a run -/

theorem Undisturbed.mono {m n : Nat} {s : State} (h : Undisturbed n s) (hm : m ≤ n) : Undisturbed m s :=
  fun p hp => h p (List.take_subset_take_left _ hm hp)

theorem Undisturbed.after {m n : Nat} {s : State} (h : Undisturbed (m + n) s) : Undisturbed n (stepStates m s) := by
  induction m generalizing s with
  | zero => simpa [stepStates] using h
  | succ m ih => rw [Nat.succ_add] at h; exact ih h.next

theorem stepStates_pred {n : Nat} (s : State) (h : 1 ≤ n) : stepStates n s = stepState (stepStates (n - 1) s) := by
  conv_lhs => rw [show n = (n - 1) + 1 by omega]
  rw [stepStates_add]
  rfl

/-! ## Edges in SEND (R68, R69, R76, R83) -/

section Send

variable {s : State} (hf : s.fwState = .send) (hr : s.pins.rst = false) (hp : s.padFails = false)
include hf hr hp

theorem countPhase_edge (hc : 2 ≤ s.btCnt) :
    KeepsBit s (stepState s) ∧ (stepState s).btCnt = s.btCnt - 1 ∧ (stepState s).btPhase = s.btPhase ∧
      (stepState s).pinQ = s.pinQ := by
  have : s.edgeRule = .countPhase := by
    cases hb : s.btPhase
    · rw [edgeRule_low hf hp hb, if_pos hc]
    · rw [edgeRule_high hf hp hb, if_pos hc]
  rw [stepState_of_not_rst hr, this]
  refine ⟨⟨?_, ?_, ?_⟩, ?_⟩
  · constructor <;> simp [ruleEffect]
  all_goals simp [ruleEffect]

theorem endHigh_edge (hb : s.btPhase = .high) (hc : s.btCnt < 2) :
    KeepsBit s (stepState s) ∧ (stepState s).btCnt = s.cfg.lowCyc (s.bsByte.getLsbD 7) ∧
      (stepState s).btPhase = .low ∧ (stepState s).pinQ = false := by
  rw [stepState_of_not_rst hr, edgeRule_high hf hp hb, if_neg (by omega)]
  refine ⟨⟨?_, ?_, ?_⟩, ?_⟩
  · constructor <;> simp [ruleEffect]
  all_goals simp [ruleEffect]

theorem nextBit_edge (hb : s.btPhase = .low) (hc : s.btCnt < 2) (hn : 2 ≤ s.bsLeft) :
    KeepsFrame s (stepState s) ∧ (stepState s).bsByte = s.bsByte <<< 1 ∧ (stepState s).bsLeft = s.bsLeft - 1 ∧
      (stepState s).btCnt = s.cfg.highCyc (s.bsByte.getLsbD 6) ∧ (stepState s).btPhase = .high ∧
      (stepState s).pinQ = true := by
  rw [stepState_of_not_rst hr, edgeRule_low hf hp hb, if_neg (by omega), if_pos hn]
  refine ⟨?_, ?_⟩
  · constructor <;> simp [ruleEffect]
  · simp [ruleEffect]

theorem nextByte_edge (hb : s.btPhase = .low) (hc : s.btCnt < 2) (hn : s.bsLeft < 2) (hi : s.byteIdx ≠ .blue) :
    (stepState s).fwState = .send ∧ (stepState s).bsByte = colByte s.col s.byteIdx.next ∧ (stepState s).bsLeft = 8 ∧
      (stepState s).btCnt = s.cfg.highCyc ((colByte s.col s.byteIdx.next).getLsbD 7) ∧
      (stepState s).btPhase = .high ∧ (stepState s).pinQ = true ∧ (stepState s).byteIdx = s.byteIdx.next ∧
      (stepState s).col = s.col ∧ (stepState s).inFrame = s.inFrame ∧ (stepState s).abort = s.abort := by
  rw [stepState_of_not_rst hr, edgeRule_low hf hp hb, if_neg (by omega), if_neg (by omega), if_pos hi]
  simp [ruleEffect, hf]

end Send

/-- A phase of `k + 1` cycles keeps its level to its last cycle (R68, R69). -/
theorem countPhase_run (k : Nat) : ∀ s : State, s.cfg.legal = true → s.fwState = .send → s.btCnt = k + 1 →
    Undisturbed k s →
      lineTrace (k + 1) s = List.replicate (k + 1) s.pinQ ∧ KeepsBit s (stepStates k s) ∧
      (stepStates k s).btCnt = 1 ∧ (stepStates k s).btPhase = s.btPhase ∧ (stepStates k s).pinQ = s.pinQ := by
  induction k with
  | zero =>
    intro s hl hf hc hu
    exact ⟨by rw [lineTrace_succ hl]; rfl, KeepsBit.refl s, hc, rfl, rfl⟩
  | succ k ih =>
    intro s hl hf hc hu
    obtain ⟨hr, hp⟩ := hu.head
    obtain ⟨a, b, c, d⟩ := countPhase_edge hf hr hp (by omega)
    obtain ⟨e, f, g, h, i⟩ := ih (stepState s) (by simpa using hl) (a.fwState.trans hf) (by rw [b, hc]; rfl) hu.next
    rw [lineTrace_succ hl, e, d]
    exact ⟨rfl, a.trans f, g, h.trans c, i.trans d⟩

/-! ## Edges in LATCH (R89, R90) -/

section Latch

variable {s : State} (hf : s.fwState = .latch) (hr : s.pins.rst = false)
include hf hr

theorem countLatch_edge (hc : 2 ≤ s.latCnt) :
    (stepState s).fwState = .latch ∧ (stepState s).latCnt = s.latCnt - 1 ∧ (stepState s).pinQ = s.pinQ ∧
      (stepState s).abort = s.abort ∧ (stepState s).inFrame = s.inFrame ∧ (stepState s).doneQ = false := by
  rw [stepState_of_not_rst hr, edgeRule_latch hf, if_pos hc]
  simp [ruleEffect, hf]

theorem endLatch_edge (hc : s.latCnt < 2) :
    (stepState s).fwState = .idle ∧ (stepState s).doneQ = true ∧ (stepState s).ferrQ = s.abort ∧
      (stepState s).pinQ = s.pinQ ∧ (stepState s).abort = false ∧ (stepState s).inFrame = s.inFrame := by
  rw [stepState_of_not_rst hr, edgeRule_latch hf, if_neg (by omega)]
  simp [ruleEffect]

end Latch

/-! ## Bytes and bits of a colour (R47, R83) -/

theorem colByte_append (g r b : Byte) :
    colByte (g ++ r ++ b) .green = g ∧ colByte (g ++ r ++ b) .red = r ∧ colByte (g ++ r ++ b) .blue = b := by
  refine ⟨?_, ?_, ?_⟩ <;>
    (apply BitVec.eq_of_getLsbD_eq
     intro k hk
     simp only [colByte, BitVec.getLsbD_append, BitVec.getLsbD_extractLsb']
     grind)

theorem msbFirst_append (g r b : Byte) : msbFirst (g ++ r ++ b) = msbFirst g ++ msbFirst r ++ msbFirst b := by
  simp only [msbFirst, List.range_succ, List.range_zero, List.nil_append, List.map_cons, List.map_nil,
    List.cons_append, BitVec.getLsbD_append]
  simp

/-! ## The bench (Machine/Upstream.lean) -/

theorem tick_eq {b : Bench} (h : b.block.cfg.legal = true) :
    b.tick = some
      { block := stepState b.driven, cycle := b.cycle + 1,
        offers := if b.driven.accepts then b.offers.tail else b.offers,
        pinErrCycles := b.pinErrCycles, rstCycles := b.rstCycles } := by
  have hs : step b.driven = .next (stepState b.driven) := step_eq h
  simp [Bench.tick, hs]

end Sys2Proof.Machine
end

