-- ==== Sys2Proof/Tests/Slice0.lean ====
section
/-! SUPPORT. Sys2Proof/Tests/Slice0.lean: what the checks refuse; words and cycle counts taken from the spec's encodings,
tables and worked examples; and, for every obligation with hypotheses, states and operands that meet all of them. -/

namespace Sys2Proof.Tests

open Sys2Proof.Machine

/-! ## What the checks refuse (R63, R11) -/

theorem test_wf_refuses_green_256 : (AsmOp.color 256 0 0).wellFormed = false := by decide

theorem test_wf_refuses_red_256 : (AsmOp.color 0 256 0).wellFormed = false := by decide

theorem test_wf_refuses_blue_256 : (AsmOp.color 0 0 256).wellFormed = false := by decide

theorem test_wf_refuses_word_of_27_bits : (AsmOp.word 0x4000000).wellFormed = false := by decide

theorem test_wf_refuses_rgb : (AsmLine.rgb 256 0 0).wellFormed = false ∧ (AsmLine.rgb 0 256 0).wellFormed = false ∧
    (AsmLine.rgb 0 0 256).wellFormed = false := by decide

theorem test_wf_refuses_frame : (AsmLine.frame [(0, 0, 0), (0, 256, 0)]).wellFormed = false := by decide

theorem test_wf_refuses_core_line : (AsmLine.core (some 3) (.word 0x4000000)).wellFormed = false := by decide

theorem test_wf_admits_the_largest : (AsmOp.color 255 255 255).wellFormed = true ∧
    (AsmOp.word 0x3FFFFFF).wellFormed = true ∧ (AsmLine.frame []).wellFormed = true := by decide

/-- Every term of Instr is well formed, as R62 says of every word; what is ill formed is a number that is no word. -/
theorem test_decode_refuses_27_bits : decodeTableWord 26 0x4000000 = none := by decide

theorem test_illegal_below_1666667 :
    (Config.withDefaults 1666666 .standard .ignore).legal = false ∧
    (Config.withDefaults 1666667 .standard .ignore).legal = true ∧
    (Config.withDefaults 1500000 .standard .ignore).legal = false ∧
    (Config.withDefaults 1000000 .slow .ignore).legal = false := by decide

/-! ## Words written out bit by bit from the encoding of R57 and R58 -/

theorem test_decode_color : decode 0b00_00000001_10000000_10100101#26 = .color 0x01#8 0x80#8 0xA5#8 := by decide

theorem test_decode_end : decode 0b01_101010111100110111101111#26 = .endFrame 0xABCDEF#24 := by decide

theorem test_decode_rsvd2 : decode 0b10_000000000000000000000000#26 = .rsvd2 0x000000#24 := by decide

theorem test_decode_rsvd3 : decode 0b11_111111111111111111111111#26 = .rsvd3 0xFFFFFF#24 := by decide

theorem test_decode_table_word : decodeTableWord 26 0x000FF00 = some (.color 0x00#8 0xFF#8 0x00#8) := by decide

/-- R63: the layout of COLOR's operands; R64: `RGB r, g, b` is COLOR in wire order. -/
theorem test_assemble : (AsmOp.color 1 128 165).assemble = some 0x00180A5#26 ∧
    assembleProgram [.rgb 128 1 165, .empty] =
      some [{ notBefore := 0, word := 0x00180A5#26 }, { notBefore := 0, word := 0x1000000#26 }] := by decide

set_option maxRecDepth 10000 in
/-- Program P4 of 95_test_vectors.md, text and words. -/
theorem test_assemble_text_p4 :
    assembleText ("COLOR 0x00, 0x00, 0x00      ; 0x0000000\n@300 COLOR 0xFF, 0x00, 0x00 ; 0x0FF0000\n" ++
        ".word 0x2000000             ; RSVD2\n@900 END                    ; 0x1000000\n").toList =
      some [⟨0, 0x0000000#26⟩, ⟨300, 0x0FF0000#26⟩, ⟨0, 0x2000000#26⟩, ⟨900, 0x1000000#26⟩] := by decide

/-- R64: RGB in caller order, a frame of two colours, the empty frame in both spellings; R63: decimal operands. -/
theorem test_assemble_text_pseudo :
    assembleText "RGB 128, 1, 165\nFRAME (0, 255, 0), (1, 128, 165)\nFRAME\nEMPTY".toList =
      some [⟨0, 0x00180A5#26⟩, ⟨0, 0x000FF00#26⟩, ⟨0, 0x00180A5#26⟩, ⟨0, 0x1000000#26⟩, ⟨0, 0x1000000#26⟩,
        ⟨0, 0x1000000#26⟩] := by decide

/-- An operand of 256, a raw word of 2^26, a missing comma, and an unknown mnemonic are no program. -/
theorem test_assemble_text_refuses :
    assembleText "COLOR 256, 0, 0".toList = none ∧ assembleText ".word 0x4000000".toList = none ∧
    assembleText "COLOR 1 2, 3".toList = none ∧ assembleText "STOP".toList = none := by decide

/-! ## Cycle counts and widths (the table of 00_scope.md section 3) -/

theorem test_counts_ref10 : [Config.ref10.t1hCyc, Config.ref10.t1lCyc, Config.ref10.t0hCyc, Config.ref10.t0lCyc,
    Config.ref10.trstCyc, Config.ref10.btWidth, Config.ref10.latWidth] = [6, 6, 3, 8, 3000, 4, 12] := by decide

theorem test_counts_ref10S : [Config.ref10S.t1hCyc, Config.ref10S.t1lCyc, Config.ref10S.t0hCyc, Config.ref10S.t0lCyc,
    Config.ref10S.trstCyc] = [6, 6, 1, 8, 3000] := by decide

theorem test_counts_ref16 : [Config.ref16.t1hCyc, Config.ref16.t1lCyc, Config.ref16.t0hCyc, Config.ref16.t0lCyc,
    Config.ref16.trstCyc, Config.ref16.btWidth, Config.ref16.latWidth] = [10, 10, 5, 13, 4800, 4, 13] := by decide

theorem test_counts_8MHz :
    let c := Config.withDefaults 8000000 .standard .ignore
    [c.t1hCyc, c.t1lCyc, c.t0hCyc, c.t0lCyc, c.trstCyc, c.btWidth, c.latWidth] = [5, 5, 3, 7, 2400, 3, 12] := by decide

theorem test_counts_1666667 :
    let c := Config.withDefaults 1666667 .standard .ignore
    [c.t1hCyc, c.t1lCyc, c.t0hCyc, c.t0lCyc, c.trstCyc, c.btWidth, c.latWidth] = [2, 2, 1, 2, 501, 2, 9] := by decide

/-! ## States to test on -/

/-- A cycle whose only assertion is reset. -/
def resetting : Inputs := { Inputs.quiet with rst := true }

/-- A cycle that offers `w`. -/
def offering (w : CmdWord) : Inputs := { Inputs.quiet with inValid := true, inData := w }

/-- A cycle in which the pad reports a failure. -/
def failing : Inputs := { Inputs.quiet with pinErr := true }

/-- IDLE, `w` in the buffer. -/
def idleWith (c : Config) (w : CmdWord) : State := { State.resetWith c [] with bufValid := true, bufWord := w }

/-- An aborted frame, waiting for its END. -/
def abortedWith (w : CmdWord) : State := { idleWith Config.ref10A w with inFrame := true, abort := true }

/-- The first cycle of the byte `v` of a colour, in the configuration `c`. -/
def firstBit (c : Config) (v : Byte) : State :=
  { State.resetWith c [] with
    fwState := .send, inFrame := true, col := v ++ 0xA5#8 ++ 0x80#8, byteIdx := .green, bsByte := v, bsLeft := 8,
    btPhase := .high, btCnt := c.highCyc (v.getLsbD 7), pinQ := true }

/-- The last cycle of a bit with `n` bits of its byte left, of the byte `i` of a colour. -/
def lastCycle (n : Nat) (i : ByteIdx) : State :=
  { firstBit Config.ref10 0x55#8 with byteIdx := i, bsLeft := n, btPhase := .low, btCnt := 1, pinQ := false }

/-- A colour's last cycle, `w` in the buffer. -/
def endWith (w : CmdWord) : State := { lastCycle 1 .blue with bufValid := true, bufWord := w }

/-- A latch period with `n` cycles left, in the configuration `c`. -/
def latching (c : Config) (n : Nat) : State := { State.resetWith c [] with fwState := .latch, latCnt := n }

/-- The state that a step answers, the state itself where it answers none. -/
def after (s : State) : State :=
  match step s with
  | .next t => t
  | .fault _ => s
  | .refused _ => s

theorem step_after {s : State} (h : s.cfg.legal = true) : step s = .next (after s) := by
  have e := step_eq h
  simp [after, e]

/-! ## One step of each command (the worked examples of R84 to R87) -/

/-- R84: `COLOR 0x00, 0xFF, 0x00`: the line is high from the consuming edge on, for T0H_CYC = 3 cycles. -/
theorem test_color_raises_the_line :
    let t := after (State.reset.withFetchWord 26 0x000FF00)
    (t.doutO, t.fwState, t.btCnt, t.col) = (true, .send, 3, 0x00FF00#24) := by decide

/-- R84: with `abort = 1` the colour is discarded. -/
theorem test_color_discarded_after_abort :
    let t := after (abortedWith 0x000FF00#26)
    (t.doutO, t.fwState, t.bufValid, t.inFrame, t.abort) = (false, .idle, false, true, true) := by decide

/-- R85: LATCH with 3000 cycles to go, line low. -/
theorem test_end_starts_the_latch :
    let t := after (State.reset.withFetchWord 26 0x1000000)
    (t.doutO, t.fwState, t.latCnt, t.busyO) = (false, .latch, 3000, true) := by decide

/-- R85: END at a colour's end, its low bits nonzero. -/
theorem test_end_at_colour_end :
    let t := after (endWith 0x1ABCDEF#26)
    (t.fwState, t.latCnt, t.inFrame, t.badCmdQ) = (.latch, 3000, false, false) := by decide

/-- R86: `.word 0x2000000` in IDLE: `bad_cmd_o = 1`, and the block is not busy. -/
theorem test_rsvd2_is_recorded :
    let t := after (State.reset.withFetchWord 26 0x2000000)
    (t.badCmdO, t.busyO, t.doutO) = (true, false, false) := by decide

/-- R86: at a colour's end the frame stalls. -/
theorem test_rsvd2_stalls :
    let t := after (endWith 0x2000000#26)
    (t.badCmdO, t.fwState, t.inFrame) = (true, .idle, true) := by decide

/-- R87: `.word 0x3FFFFFF` in IDLE: `bad_cmd_o = 1` and the line low. -/
theorem test_rsvd3_is_recorded :
    let t := after (State.reset.withFetchWord 26 0x3FFFFFF)
    (t.badCmdO, t.busyO, t.doutO) = (true, false, false) := by decide

/-- R87: at a colour's end the frame stalls. -/
theorem test_rsvd3_stalls :
    let t := after (endWith 0x3FFFFFF#26)
    (t.badCmdO, t.fwState, t.inFrame) = (true, .idle, true) := by decide

/-- R83: green is followed by red. -/
theorem test_next_byte_is_red :
    let t := after (lastCycle 1 .green)
    (t.byteIdx, t.bsByte, t.bsLeft, t.btCnt) = (.red, 0xA5#8, 8, 6) := by decide

/-- R92: the abort, with a word offered in the same cycle: the word is accepted, not consumed. -/
theorem test_pad_abort :
    let t := after { firstBit Config.ref10A 0x80#8 with env := [{ offering 0x1000000#26 with pinErr := true }] }
    (t.doutO, t.fwState, t.abort, t.bufValid, t.bufWord) = (false, .idle, true, true, 0x1000000#26) := by decide

/-- `withFetchWord` from every phase: the next step runs the word (END, whose effect shows in `latCnt`). -/
theorem test_withFetchWord_from_each_phase :
    [firstBit Config.ref10 0x80#8, lastCycle 1 .blue, latching Config.ref10 7,
      { State.reset with env := [resetting] }].map
        (fun s => (after (s.withFetchWord 26 0x1000000)).latCnt) = [3000, 3000, 3000, 3000] := by decide

/-! ## Witnesses: states and operands that meet the hypotheses of each obligation -/

theorem test_wit_DecodeInvertsEncode :
    (Instr.color 0xFF#8 0x00#8 0x80#8).wellFormed = true ∧ (Instr.rsvd3 0xFFFFFF#24).wellFormed = true := by decide

theorem test_wit_idle (c : Config) (w : CmdWord) :
    (idleWith c w).bufValid = true ∧ InIdle (idleWith c w) ∧ (idleWith c w).abort = false := ⟨rfl, ⟨rfl, rfl⟩, rfl⟩

theorem test_wit_idle_aborted (w : CmdWord) :
    (abortedWith w).bufValid = true ∧ InIdle (abortedWith w) ∧ (abortedWith w).abort = true := ⟨rfl, ⟨rfl, rfl⟩, rfl⟩

theorem test_wit_colour_end (w : CmdWord) : (endWith w).bufValid = true ∧ AtColourEnd (endWith w) :=
  ⟨rfl, rfl, rfl, .inl rfl, rfl, Nat.lt_succ_self 1, Nat.lt_succ_self 1, rfl⟩

theorem test_wit_EveryWordIsExactlyOneCommand :
    (0x0123456#26).extractLsb' 24 2 = 0b00#2 ∧ (0x1123456#26).extractLsb' 24 2 = 0b01#2 ∧
    (0x2123456#26).extractLsb' 24 2 = 0b10#2 ∧ (0x3123456#26).extractLsb' 24 2 = 0b11#2 ∧
    encode (.color 0x12#8 0x34#8 0x56#8) = 0x0123456#26 := by decide

theorem test_wit_AssembledWordsDecode : (255 < 256 ∧ 255 < 256 ∧ 255 < 256) ∧
    ((256 : Nat) ≤ 256 ∨ (256 : Nat) ≤ 0 ∨ (256 : Nat) ≤ 0) := by decide

theorem test_wit_DurationsRoundUpToCycles : Config.ref16.profile = .standard := by decide

theorem test_wit_LegalConfigurations : Config.ref10S.profile = .slow ∧
    (State.resetWith (Config.withDefaults 1666666 .slow .abort) []).cfg.legal = false := by decide

theorem test_wit_CountersFitTheirWidths :
    CountersFit (latching Config.ref10 3000) ∧ step (latching Config.ref10 3000) = .next (latching Config.ref10 2999) := by
  refine ⟨?_, rfl⟩
  unfold CountersFit
  decide

theorem test_wit_StepRunsTheBufferedCommand :
    let s := idleWith Config.ref10 (encode (.color 0x00#8 0xFF#8 0x00#8))
    s.cfg.legal = true ∧ s.bufValid = true ∧ s.bufWord = encode (.color 0x00#8 0xFF#8 0x00#8) ∧
      (Instr.color 0x00#8 0xFF#8 0x00#8).wellFormed = true ∧ InIdle s :=
  ⟨by decide, rfl, rfl, rfl, rfl, rfl⟩

theorem test_wit_StepRunsTheBufferedCommand_at_colour_end :
    let s := endWith (encode (.endFrame 0#24))
    s.cfg.legal = true ∧ s.bufValid = true ∧ s.bufWord = encode (.endFrame 0#24) ∧ AtColourEnd s :=
  ⟨by decide, rfl, rfl, (test_wit_colour_end _).2⟩

theorem test_wit_NothingStopsTheBlock : Config.ref10A.legal = true ∧ Config.ref10S.legal = true := by decide

theorem test_wit_ResetEdgeRestoresEveryRegister :
    let s := { firstBit Config.ref10 0x80#8 with env := [resetting] }
    s.cfg.legal = true ∧ s.pins.rst = true := by decide

theorem test_wit_HeldResetChangesNothingMore :
    let s := { firstBit Config.ref10 0x80#8 with env := [resetting, resetting, .quiet] }
    s.cfg.legal = true ∧ 1 + 1 ≤ s.env.length ∧ ∀ p ∈ s.env.take (1 + 1), p.rst = true := by decide

/-- END, offered in the first cycle, is consumed at the second edge; no COLOR is. -/
theorem test_wit_LineIsLowUntilAColorIsConsumed :
    Config.ref10.legal = true ∧
    consumedWords 2 (State.resetWith Config.ref10 [offering 0x1ABCDEF#26]) = [0x1ABCDEF#26] ∧
    ∀ w ∈ consumedWords 2 (State.resetWith Config.ref10 [offering 0x1ABCDEF#26]), w.extractLsb' 24 2 ≠ 0b00#2 := by
  have h : consumedWords 2 (State.resetWith Config.ref10 [offering 0x1ABCDEF#26]) = [0x1ABCDEF#26] := by rfl
  refine ⟨by decide, h, fun w hw => ?_⟩
  rw [h, List.mem_singleton] at hw
  subst hw
  decide

theorem test_wit_AcceptanceFillsTheEmptyBuffer :
    let s := { State.reset with env := [offering 0x2000000#26] }
    s.accepts = true ∧ step s = .next (after s) := ⟨by decide, step_after (by decide)⟩

theorem test_wit_BufferedWordWaitsUntilConsumed :
    let s := { latching Config.ref10 1 with bufValid := true, bufWord := 0x1000000#26 }
    step s = .next (after s) ∧ s.pins.rst = false ∧ s.bufValid = true ∧ ¬ (InIdle s ∨ AtColourEnd s) := by
  refine ⟨step_after (by decide), ?_⟩
  unfold InIdle AtColourEnd NoPadAbort
  decide

theorem test_wit_BufferedWordWaitsUntilConsumed_consumed :
    step (endWith 0x1000000#26) = .next (after (endWith 0x1000000#26)) ∧ (endWith 0x1000000#26).pins.rst = false :=
  ⟨step_after (by decide), rfl⟩

theorem test_wit_WordsTakeEffectOnceInOrder :
    let s := { idleWith Config.ref10 0x2000001#26 with env := [.quiet, offering 0x3000002#26, .quiet] }
    NoReset 3 s ∧ run 3 s = .next (after (after (after s))) ∧ acceptedWords 3 s = [0x3000002#26] ∧
      consumedWords 3 s = [0x2000001#26, 0x3000002#26] := by
  refine ⟨?_, ?_, by decide, by decide⟩
  · unfold NoReset
    decide
  · rfl

theorem test_wit_UnacceptedDataHasNoEffect :
    let s := { idleWith Config.ref10 0x1000000#26 with env := [offering 0x2000000#26] }
    s.accepts = false := by decide

theorem test_wit_CommandsLeaveTheRestUnchanged :
    let s := idleWith Config.ref10 0x1000000#26
    exec (.endFrame 0#24) s = .next { s with bufValid := false, fwState := .latch, latCnt := 3000 } := rfl

theorem test_wit_HighPhaseCountsThenFalls :
    let s := firstBit Config.ref10A 0x80#8
    s.cfg.legal = true ∧ s.pins.rst = false ∧ s.fwState = .send ∧ s.btPhase = .high ∧ NoPadAbort s ∧ 2 ≤ s.btCnt := by
  unfold NoPadAbort
  decide

theorem test_wit_HighPhaseCountsThenFalls_last :
    let s := firstBit Config.ref10S 0x00#8
    s.cfg.legal = true ∧ s.pins.rst = false ∧ s.fwState = .send ∧ s.btPhase = .high ∧ NoPadAbort s ∧ s.btCnt < 2 := by
  unfold NoPadAbort
  decide

theorem test_wit_LowPhase_count :
    let s := { lastCycle 1 .blue with btCnt := 2 }
    s.cfg.legal = true ∧ s.pins.rst = false ∧ s.fwState = .send ∧ s.btPhase = .low ∧ NoPadAbort s ∧ 2 ≤ s.btCnt := by
  unfold NoPadAbort
  decide

theorem test_wit_LowPhase_nextBit :
    let s := lastCycle 2 .blue
    s.cfg.legal = true ∧ s.pins.rst = false ∧ s.fwState = .send ∧ s.btPhase = .low ∧ NoPadAbort s ∧ s.btCnt < 2 ∧
      2 ≤ s.bsLeft := by
  unfold NoPadAbort
  decide

theorem test_wit_LowPhase_nextByte :
    ([ByteIdx.green, ByteIdx.red].all fun i =>
      let s := lastCycle 1 i
      s.cfg.legal && !s.pins.rst && decide (s.fwState = .send) && decide (s.btPhase = .low) &&
        decide (s.cfg.onPinError = .ignore) && decide (s.btCnt < 2) && decide (s.bsLeft < 2) &&
        decide (s.byteIdx = i)) = true := by decide

theorem test_wit_StallAndIdleWaitForAWord :
    ((lastCycle 1 .blue).cfg.legal = true ∧ AtColourEnd (lastCycle 1 .blue) ∧ (lastCycle 1 .blue).bufValid = false) ∧
    (State.reset.cfg.legal = true ∧ InIdle State.reset ∧ State.reset.bufValid = false) := by
  unfold InIdle AtColourEnd NoPadAbort
  decide

theorem test_wit_LatchCountsThenReports :
    (let s := latching Config.ref10 2
     s.cfg.legal = true ∧ s.pins.rst = false ∧ s.fwState = .latch ∧ 2 ≤ s.latCnt) ∧
    (let s := latching Config.ref10 1
     s.cfg.legal = true ∧ s.pins.rst = false ∧ s.fwState = .latch ∧ s.latCnt < 2) := by decide

theorem test_wit_PadFailureAbortsTheFrame :
    let s := { firstBit Config.ref10A 0x80#8 with env := [failing] }
    s.cfg.legal = true ∧ s.pins.rst = false ∧ s.fwState = .send ∧ s.cfg.onPinError = .abort ∧ s.pins.pinErr = true := by
  decide

theorem test_wit_PadReports :
    (latching Config.ref10A 2).fwState ≠ .send ∧ (firstBit Config.ref10 0x80#8).cfg.onPinError = .ignore := by decide

theorem test_wit_SerializerHoldsDuringABit :
    let s := lastCycle 2 .blue
    step s = .next (after s) ∧ s.pins.rst = false ∧ (after s).bsByte ≠ s.bsByte ∧ (after s).bsLeft ≠ s.bsLeft :=
  ⟨step_after (by decide), by decide⟩

theorem test_wit_BitTimerHoldsOutsideSend :
    let s := idleWith Config.ref10 0x000FF00#26
    step s = .next (after s) ∧ s.pins.rst = false ∧ s.fwState ≠ .send ∧ (after s).btPhase ≠ s.btPhase ∧
      (after s).btCnt ≠ s.btCnt ∧ (after s).pinQ ≠ s.pinQ :=
  ⟨step_after (by decide), by decide⟩

/-- The invariant of a state that sends a bit. -/
theorem test_firstBit_meets_the_invariant : BlockInv (firstBit Config.ref10A 0x80#8) := by
  constructor <;> decide

theorem test_wit_DoneIsAOneCyclePulse :
    BlockInv (after (latching Config.ref10 1)) ∧ (after (latching Config.ref10 1)).doneQ = true ∧
      step (after (latching Config.ref10 1)) = .next (after (after (latching Config.ref10 1))) := by
  refine ⟨?_, by decide, step_after (by decide)⟩
  constructor <;> decide

theorem test_wit_BadCmdIsStickyUntilReset :
    step (idleWith Config.ref10 0x3000000#26) = .next (after (idleWith Config.ref10 0x3000000#26)) ∧
      (after (idleWith Config.ref10 0x3000000#26)).badCmdQ = true := ⟨step_after (by decide), by decide⟩

theorem test_wit_AbortLastsUntilTheFrameIsReported :
    BlockInv (abortedWith 0x000FF00#26) ∧ (abortedWith 0x000FF00#26).abort = true ∧
      (abortedWith 0x000FF00#26).pins.rst = false ∧
      step (abortedWith 0x000FF00#26) = .next (after (abortedWith 0x000FF00#26)) := by
  refine ⟨?_, by decide, by decide, step_after (by decide)⟩
  constructor <;> decide

theorem test_wit_AbortLastsUntilTheFrameIsReported_end :
    let s := { latching Config.ref10A 1 with abort := true }
    BlockInv s ∧ s.abort = true ∧ s.pins.rst = false ∧ step s = .next (after s) := by
  refine ⟨?_, by decide, by decide, step_after (by decide)⟩
  constructor <;> decide

theorem test_wit_StepKeepsTheInvariant :
    BlockInv (firstBit Config.ref10A 0x80#8) ∧
      step (firstBit Config.ref10A 0x80#8) = .next (after (firstBit Config.ref10A 0x80#8)) :=
  ⟨test_firstBit_meets_the_invariant, step_after (by decide)⟩

theorem test_wit_ReachableStatesMeetTheInvariant :
    let s := State.resetWith Config.ref10A [offering 0x0800000#26, .quiet, failing]
    run 3 s = .next (after (after (after s))) ∧ (after (after (after s))).abort = true := ⟨rfl, by decide⟩

/-- The premises of BitWaveform, for both bits; the pad's report does not count under IGNORE. -/
theorem test_wit_BitWaveform :
    ([0x80#8, 0x00#8].all fun v =>
      let s := { firstBit Config.ref10 v with env := [failing] }
      let b := v.getLsbD 7
      s.cfg.legal && decide (s.fwState = .send) && decide (s.btPhase = .high) && s.pinQ &&
        decide (s.bsByte.getLsbD 7 = b) && decide (s.btCnt = s.cfg.highCyc b) &&
        decide (∀ p ∈ s.env.take (bitCycles s.cfg b),
          p.rst = false ∧ (s.cfg.onPinError = .abort → p.pinErr = false))) = true := by decide

theorem test_wit_BitWaveform_slow : Config.ref10S.profile = .slow := by decide

theorem test_wit_ByteWaveform :
    let s := { firstBit Config.ref10 0xA5#8 with env := [failing] }
    s.cfg.legal = true ∧ s.fwState = .send ∧ s.btPhase = .high ∧ s.pinQ = true ∧ s.bsByte = 0xA5#8 ∧ s.bsLeft = 8 ∧
      s.btCnt = s.cfg.highCyc ((0xA5#8).getLsbD 7) ∧ Undisturbed (waveCycles s.cfg 0xA5#8) s := by
  unfold Undisturbed
  decide

theorem test_wit_ColourWaveform :
    let w := encode (.color 0x01#8 0x80#8 0xA5#8)
    (∀ s ∈ [idleWith Config.ref10A w, endWith w],
      s.cfg.legal = true ∧ s.bufValid = true ∧ s.bufWord = w ∧
        ∀ p ∈ s.env.take (1 + waveCycles s.cfg (w.extractLsb' 0 24)),
          p.rst = false ∧ (s.cfg.onPinError = .abort → p.pinErr = false)) ∧
    (InIdle (idleWith Config.ref10A w) ∧ (idleWith Config.ref10A w).abort = false) ∧ AtColourEnd (endWith w) := by
  refine ⟨?_, ⟨⟨rfl, rfl⟩, rfl⟩, (test_wit_colour_end _).2⟩
  intro s hs
  simp only [List.mem_cons, List.not_mem_nil, or_false] at hs
  rcases hs with rfl | rfl
  · exact ⟨by decide, rfl, rfl, fun p hp => by simp [idleWith, State.resetWith] at hp⟩
  · exact ⟨by decide, rfl, rfl, fun p hp => by simp [endWith, lastCycle, firstBit, State.resetWith] at hp⟩

theorem test_wit_LatchPeriodEndsInDone :
    (let s := latching Config.ref10 3000
     s.cfg.legal = true ∧ s.fwState = .latch ∧ s.latCnt = 3000 ∧ 1 ≤ 3000 ∧ s.pinQ = false ∧ NoReset 3000 s) ∧
    (let s := { latching Config.ref10A 1 with abort := true }
     s.cfg.legal = true ∧ s.fwState = .latch ∧ s.latCnt = 1 ∧ s.pinQ = false ∧ NoReset 1 s) :=
  ⟨⟨by decide, rfl, rfl, by decide, rfl, fun p hp => by simp [latching, State.resetWith] at hp⟩,
   by decide, rfl, rfl, rfl, fun p hp => by simp [latching, State.resetWith] at hp⟩

theorem test_wit_StalledFrameResumesWithTheNextColor :
    let before := [Inputs.quiet, failing]
    let offer := offering (encode (.color 0x01#8 0x80#8 0xA5#8))
    let s := { State.resetWith Config.ref10 (before ++ offer :: Inputs.quiet :: []) with inFrame := true }
    s.cfg.legal = true ∧ s.fwState = .idle ∧ s.inFrame = true ∧ s.abort = false ∧ s.bufValid = false ∧ s.pinQ = false ∧
      s.env = before ++ offer :: Inputs.quiet :: [] ∧ (∀ p ∈ before, p.rst = false ∧ p.inValid = false) ∧
      offer.rst = false ∧ offer.inValid = true ∧ offer.inData = encode (.color 0x01#8 0x80#8 0xA5#8) ∧
      Inputs.quiet.rst = false := by decide

theorem test_wit_FrameOnTheWire : State.reset.cfg.legal = true ∧ State.reset.fresh :=
  ⟨by decide, rfl, rfl, rfl, rfl, rfl, rfl⟩

/-- Two idle blocks whose leftover registers differ. -/
theorem test_wit_LeftoverRegistersAreUnobservable :
    LiveEq State.reset { State.reset with col := 0xABCDEF#24, bsByte := 0x55#8, latCnt := 7, btCnt := 3 } ∧
      step State.reset = .next (after State.reset) := by
  refine ⟨?_, step_after (by decide)⟩
  constructor <;> decide

theorem test_wit_NoStateLeaksBetweenFrames :
    BlockInv { State.reset with doneQ := true, col := 0xABCDEF#24 } ∧
      { State.reset with doneQ := true, col := 0xABCDEF#24 }.doneQ = true := by
  refine ⟨?_, rfl⟩
  constructor <;> decide

end Sys2Proof.Tests
end

/-! # Configuration: the cycle counts, their legality and the counters' widths (00_scope.md R9 to R12) -/

namespace Sys2Proof

/-! ## Durations in cycles (R9) -/

/-- The model's sum, written constant first, is R9's. -/
theorem cyc_eq (f d : Nat) : cyc f d = (d * f + 10 ^ 9 - 1) / 10 ^ 9 := by
  unfold cyc
  congr 1
  omega

theorem cyc_eq_ceilDiv (f d : Nat) : cyc f d = (d * f) ⌈/⌉ 10 ^ 9 := by
  rw [cyc_eq, Nat.ceilDiv_eq_add_pred_div]

/-- `cyc` is the least number of cycles that lasts as long as the duration. -/
theorem cyc_le_iff {f d n : Nat} : cyc f d ≤ n ↔ d * f ≤ 10 ^ 9 * n := by
  rw [cyc_eq_ceilDiv, ceilDiv_le_iff_le_mul (by decide)]

theorem lt_cyc_iff {f d n : Nat} : n < cyc f d ↔ 10 ^ 9 * n < d * f := by
  rw [← not_le, cyc_le_iff, not_le]

theorem le_cyc_mul (f d : Nat) : d * f ≤ cyc f d * 10 ^ 9 := by
  rw [Nat.mul_comm (cyc f d)]
  exact cyc_le_iff.1 le_rfl

/-- One cycle less would be too short. -/
theorem cyc_mul_lt (f d : Nat) : cyc f d * 10 ^ 9 < d * f + 10 ^ 9 := by
  cases h : cyc f d with
  | zero => omega
  | succ n =>
    have hn : 10 ^ 9 * n < d * f := lt_cyc_iff.1 (by omega)
    omega

theorem one_le_cyc_iff {f d : Nat} : 1 ≤ cyc f d ↔ 0 < d * f := lt_cyc_iff

theorem one_lt_cyc_iff {f d : Nat} : 1 < cyc f d ↔ 10 ^ 9 < d * f := lt_cyc_iff

/-- Half a duration rounds up to fewer cycles exactly if the whole one is longer than one clock period. -/
theorem cyc_lt_cyc_double_iff {f d : Nat} : cyc f d < cyc f (2 * d) ↔ 10 ^ 9 < 2 * d * f := by
  have half_lower := le_cyc_mul f d
  have half_upper := cyc_mul_lt f d
  have whole_lower := le_cyc_mul f (2 * d)
  have whole_upper := cyc_mul_lt f (2 * d)
  rw [Nat.mul_assoc] at whole_lower whole_upper ⊢
  omega

/-- Settles O5: `cyc` is division rounded up, which is the least whole number of cycles not shorter than the duration. -/
theorem durationsRoundUpToCycles : Obligations.DurationsRoundUpToCycles := by
  refine ⟨fun c => ⟨cyc_eq _ _, cyc_eq _ _, cyc_eq _ _, cyc_eq _ _, fun h => ?_⟩,
    fun f d => ⟨le_cyc_mul f d, cyc_mul_lt f d⟩⟩
  rw [Config.t0hCyc, h]
  exact cyc_eq _ _

/-! ## Legal configurations (R10, R11) -/

theorem Config.t0hCyc_of_slow {c : Config} (h : c.profile = .slow) : c.t0hCyc = 1 := by simp [Config.t0hCyc, h]

theorem Config.legal_iff (c : Config) : c.legal = true ↔
    1 ≤ c.t1hCyc ∧ 1 ≤ c.t1lCyc ∧ 1 ≤ c.t0hCyc ∧ 1 ≤ c.t0lCyc ∧ 1 ≤ c.trstCyc ∧ c.t0hCyc < c.t1hCyc := by
  simp [Config.legal, and_assoc]

/-- With the source's durations a bit 0 is shorter than a bit 1 exactly if 600 ns are longer than one clock period: under
STANDARD because its high time is half of that, under SLOW because it is one cycle. -/
theorem withDefaults_t0hCyc_lt_t1hCyc_iff (f : Nat) (p : TimingProfile) (e : OnPinError) :
    (Config.withDefaults f p e).t0hCyc < (Config.withDefaults f p e).t1hCyc ↔ 10 ^ 9 < 600 * f := by
  cases p with
  | standard => exact cyc_lt_cyc_double_iff (d := 300)
  | slow => exact one_lt_cyc_iff (d := 600)

/-- At any running clock, no count of the source's durations is 0. -/
theorem withDefaults_cycles_pos {f : Nat} (hf : 0 < f) (p : TimingProfile) (e : OnPinError) :
    1 ≤ (Config.withDefaults f p e).t1hCyc ∧ 1 ≤ (Config.withDefaults f p e).t1lCyc ∧
    1 ≤ (Config.withDefaults f p e).t0hCyc ∧ 1 ≤ (Config.withDefaults f p e).t0lCyc ∧
    1 ≤ (Config.withDefaults f p e).trstCyc := by
  have pos {d : Nat} (hd : 0 < d) : 1 ≤ cyc f d := one_le_cyc_iff.2 (Nat.mul_pos hd hf)
  refine ⟨pos (d := 600) (by decide), pos (d := 600) (by decide), ?_, pos (d := 800) (by decide),
    pos (d := 300000) (by decide)⟩
  cases p with
  | standard => exact pos (d := 300) (by decide)
  | slow => exact (Config.t0hCyc_of_slow rfl).ge

theorem withDefaults_legal_iff (f : Nat) (p : TimingProfile) (e : OnPinError) :
    (Config.withDefaults f p e).legal = true ↔ 10 ^ 9 < 600 * f := by
  rw [Config.legal_iff, ← withDefaults_t0hCyc_lt_t1hCyc_iff f p e]
  constructor
  · rintro ⟨-, -, -, -, -, hlt⟩
    exact hlt
  · intro hlt
    have hf : 0 < f := by
      have := (withDefaults_t0hCyc_lt_t1hCyc_iff f p e).1 hlt
      omega
    obtain ⟨h1, h2, h3, h4, h5⟩ := withDefaults_cycles_pos hf p e
    exact ⟨h1, h2, h3, h4, h5, hlt⟩

/-- Settles O6: with the default durations every count is positive at any running clock, so legality is the comparison of
the two high times. -/
theorem legalConfigurations : Obligations.LegalConfigurations :=
  ⟨Config.legal_iff, fun _ => Config.t0hCyc_of_slow,
    fun f p e => ⟨withDefaults_legal_iff f p e, by omega⟩, fun _ => Machine.step_illegal⟩

/-! ## Counter widths (R12) -/

/-- A number fits the width of any number not below it. -/
theorem lt_two_pow_bitLength {k n : Nat} (h : k ≤ n) : k < 2 ^ bitLength n := by
  refine h.trans_lt ?_
  unfold bitLength
  split
  · next h0 => simp [h0]
  · exact Nat.lt_log2_self

theorem Config.highCyc_lt_btWidth (c : Config) (b : Bool) : c.highCyc b < 2 ^ c.btWidth := by
  apply lt_two_pow_bitLength
  cases b <;> simp [Config.highCyc]

theorem Config.lowCyc_lt_btWidth (c : Config) (b : Bool) : c.lowCyc b < 2 ^ c.btWidth := by
  apply lt_two_pow_bitLength
  cases b <;> simp [Config.lowCyc]

theorem Config.trstCyc_lt_latWidth (c : Config) : c.trstCyc < 2 ^ c.latWidth := lt_two_pow_bitLength le_rfl

end Sys2Proof

namespace Sys2Proof.Machine

/-! ## Counters that fit, one lemma for each way a rule writes them -/

/-- A write that raises no counter keeps them within their widths. -/
theorem CountersFit.of_le {s t : State} (h : CountersFit s) (hcfg : t.cfg = s.cfg) (hbt : t.btCnt ≤ s.btCnt)
    (hlat : t.latCnt ≤ s.latCnt) (hbs : t.bsLeft ≤ s.bsLeft) : CountersFit t := by
  obtain ⟨hb, hl, hn⟩ := h
  unfold CountersFit
  rw [hcfg]
  exact ⟨hbt.trans_lt hb, hlat.trans_lt hl, hbs.trans_lt hn⟩

theorem countersFit_endHigh {s : State} (h : CountersFit s) : CountersFit (endHigh s) := by
  obtain ⟨-, hl, hn⟩ := h
  exact ⟨s.cfg.lowCyc_lt_btWidth _, hl, hn⟩

theorem countersFit_nextBit {s : State} (h : CountersFit s) : CountersFit (nextBit s) := by
  obtain ⟨-, hl, hn⟩ := h
  exact ⟨s.cfg.highCyc_lt_btWidth _, hl, (Nat.sub_le _ _).trans_lt hn⟩

theorem countersFit_loadByte {s : State} (v : Byte) (h : CountersFit s) : CountersFit (loadByte v s) := by
  obtain ⟨-, hl, -⟩ := h
  exact ⟨s.cfg.highCyc_lt_btWidth _, hl, by simp⟩

theorem countersFit_startLatch {s : State} (h : CountersFit s) : CountersFit (startLatch s) := by
  obtain ⟨hb, -, hn⟩ := h
  exact ⟨hb, s.cfg.trstCyc_lt_latWidth, hn⟩

theorem countersFit_openEdge {s : State} (h : CountersFit s) : CountersFit (openEdge s) :=
  h.of_le (by simp) (by simp) (by simp) (by simp)

theorem countersFit_resetWith (c : Config) (e : List Inputs) : CountersFit (State.resetWith c e) :=
  ⟨Nat.two_pow_pos _, Nat.two_pow_pos _, Nat.two_pow_pos _⟩

/-- COLOR loads the serializer and starts a bit, END loads the latch counter, a reserved word writes no counter. -/
theorem countersFit_effectOf (i : Instr) (c : Context) {s : State} (h : CountersFit s) :
    CountersFit (effectOf i c s) := by
  have rejected : CountersFit (rejectWord c s) := by cases c <;> exact h
  cases i with
  | color g r b =>
    have loaded : CountersFit (loadColour g r b (takeWord s)) := countersFit_loadByte g h
    cases c with
    | inIdle =>
      simp only [effectOf, colorEffect]
      split
      · exact h
      · exact loaded
    | atColourEnd => exact loaded
  | endFrame _ => exact countersFit_startLatch h
  | rsvd2 _ => exact rejected
  | rsvd3 _ => exact rejected

theorem countersFit_consumeAs (i : Instr) {s : State} (h : CountersFit s) :
    CountersFit (consumeAs (effectOf i) s) := by
  cases hc : s.context with
  | none => rwa [consumeAs_none hc]
  | some c => rw [consumeAs_some hc]; exact countersFit_effectOf i c h

theorem countersFit_ruleEffect (r : EdgeRule) {s : State} (h : CountersFit s) : CountersFit (ruleEffect r s) := by
  cases r with
  | wait => exact h
  | consume => exact countersFit_consumeAs _ h
  | padAbort => exact h
  | countPhase => exact h.of_le rfl (Nat.sub_le _ _) le_rfl le_rfl
  | endHigh => exact countersFit_endHigh h
  | nextBit => exact countersFit_nextBit h
  | nextByte => exact countersFit_loadByte _ h
  | stall => exact h
  | countLatch => exact h.of_le rfl le_rfl (Nat.sub_le _ _) le_rfl
  | endLatch => exact h

theorem countersFit_stepState {s : State} (h : CountersFit s) : CountersFit (stepState s) := by
  cases hr : s.pins.rst with
  | true => rw [stepState_of_rst hr]; exact countersFit_resetWith _ _
  | false => rw [stepState_of_not_rst hr]; exact countersFit_ruleEffect _ (countersFit_openEdge h)

/-- Settles O7, by the rule of the edge: each write to a counter lowers it or loads a count its width was made for. -/
theorem countersFitTheirWidths : Obligations.CountersFitTheirWidths := by
  refine ⟨fun s t h hstep => ?_, countersFit_resetWith⟩
  obtain ⟨-, rfl⟩ := step_next_iff.1 hstep
  exact countersFit_stepState h

end Sys2Proof.Machine

/-! # The state: its invariant, its status bits, and the registers and inputs that do not matter (10_state.md) -/

namespace Sys2Proof

/-! ## Legal phase lengths (R11, R66) -/

theorem Config.one_le_highCyc {c : Config} (hl : c.legal = true) (b : Bool) : 1 ≤ c.highCyc b := by
  obtain ⟨h1, -, h0, -⟩ := (Config.legal_iff c).1 hl
  cases b
  exacts [h0, h1]

theorem Config.one_le_lowCyc {c : Config} (hl : c.legal = true) (b : Bool) : 1 ≤ c.lowCyc b := by
  obtain ⟨-, h1, -, h0, -⟩ := (Config.legal_iff c).1 hl
  cases b
  exacts [h0, h1]

end Sys2Proof

namespace Sys2Proof.Machine

/-! ## Reset (R18, R38) -/

/-- Settles O10: a reset edge answers `State.resetWith`, whose fields are the values of R38. -/
theorem resetEdgeRestoresEveryRegister : Obligations.ResetEdgeRestoresEveryRegister := by
  intro s hl hr
  rw [step_eq hl, stepState_of_rst hr]
  rfl

/-! ## The block's invariant in each phase (R45) -/

/-- What the invariant asks of an idle block. -/
theorem blockInv_of_idle {s : State} (hf : s.fwState = .idle) (hline : s.pinQ = false)
    (habort : s.abort = true → s.cfg.onPinError = .abort ∧ s.inFrame = true)
    (herr : s.ferrQ = true → s.doneQ = true ∧ s.cfg.onPinError = .abort)
    (hdone : s.doneQ = true → s.inFrame = false ∧ s.abort = false) : BlockInv s where
  lineHigh := by simp [hline]
  highLine := by simp [hf]
  sending := by simp [hf]
  highCount := by simp [hf]
  lowCount := by simp [hf]
  latching := by simp [hf]
  aborting ha := ⟨(habort ha).1, by simp [hf]⟩
  abortOpen ha := .inl (habort ha).2
  errDone he := (herr he).1
  errAbort he := (herr he).2
  doneIdle hd := ⟨hf, hdone hd⟩

theorem blockInv_resetWith (c : Config) (e : List Inputs) : BlockInv (State.resetWith c e) :=
  blockInv_of_idle rfl rfl (by simp) (by simp) (by simp)

/-- Settles O12: after a reset the block is idle with its line low and neither an abort nor a result. -/
theorem resetStateMeetsTheInvariant : Obligations.ResetStateMeetsTheInvariant :=
  ⟨blockInv_resetWith, blockInv_resetWith _ _⟩

/-- The line is low in IDLE and LATCH and in the low phase of a bit. -/
theorem BlockInv.lineLow {s : State} (h : BlockInv s) (hlow : s.fwState ≠ .send ∨ s.btPhase = .low) :
    s.pinQ = false := by
  by_contra hp
  obtain ⟨hf, hb⟩ := h.lineHigh (by simpa using hp)
  simp [hf, hb] at hlow

/-- The invariant speaks of no input and not of the buffer. -/
theorem blockInv_nextCycle {s : State} (h : BlockInv s) : BlockInv (nextCycle s) := { h with }

theorem blockInv_takeWord {s : State} (h : BlockInv s) : BlockInv (takeWord s) := { h with }

theorem blockInv_recordBadCmd {s : State} (h : BlockInv s) : BlockInv (recordBadCmd s) := { h with }

/-- The default clears drop the result with its conditions (R91). -/
theorem blockInv_openEdge {s : State} (h : BlockInv s) : BlockInv (openEdge s) where
  lineHigh := by simpa using h.lineHigh
  highLine := by simpa using h.highLine
  sending := by simpa using h.sending
  highCount := by simpa using h.highCount
  lowCount := by simpa using h.lowCount
  latching := by simpa using h.latching
  aborting := by simpa using h.aborting
  abortOpen := by simpa using h.abortOpen
  errDone := by simp
  errAbort := by simp
  doneIdle := by simp

/-! ## What each rule does to the invariant, once the default clears have been made -/

/-- The first cycle of a bit inside an open frame (R67). -/
theorem blockInv_startBit {s : State} {b : Bool} (hl : s.cfg.legal = true) (hf : s.fwState = .send)
    (hin : s.inFrame = true) (ha : s.abort = false) (hpos : 1 ≤ s.bsLeft)
    (hle : s.bsLeft ≤ 8) (hb : s.bsByte.getLsbD 7 = b) (hd : s.doneQ = false) (he : s.ferrQ = false) :
    BlockInv (startBit b s) where
  lineHigh := by simp [hf]
  highLine := by simp
  sending := by simp [hin, ha, hpos, hle]
  highCount _ _ := ⟨Config.one_le_highCyc hl b, by simp only [startBit_bsByte, hb]; rfl⟩
  lowCount := by simp
  latching := by simp [hf]
  aborting := by simp [ha]
  abortOpen := by simp [ha]
  errDone := by simp [he]
  errAbort := by simp [he]
  doneIdle := by simp [hd]

/-- The first cycle of a byte inside an open frame (R75). -/
theorem blockInv_loadByte {s : State} (v : Byte) (hl : s.cfg.legal = true) (hf : s.fwState = .send)
    (hin : s.inFrame = true) (ha : s.abort = false) (hd : s.doneQ = false) (he : s.ferrQ = false) :
    BlockInv (loadByte v s) :=
  blockInv_startBit hl hf hin ha (show 1 ≤ 8 by decide) (Nat.le_refl 8) rfl hd he

section Rules

variable {s : State} (h : BlockInv s) (hd : s.doneQ = false)
include h hd

/-- With no frame reported, none is reported as failed (R45 item 5). -/
theorem BlockInv.ferrQ_of_doneQ : s.ferrQ = false := by
  by_contra he
  simpa [hd] using h.errDone (by simpa using he)

omit hd in
/-- A phase that goes on (R68, R69). -/
theorem blockInv_countPhase (hc : 2 ≤ s.btCnt) : BlockInv (countPhase s) where
  __ := h
  highCount hf hb := by
    obtain ⟨-, hle⟩ := h.highCount hf hb
    exact ⟨Nat.le_sub_of_add_le hc, (Nat.sub_le _ _).trans hle⟩
  lowCount hf hb := by
    obtain ⟨-, hle⟩ := h.lowCount hf hb
    exact ⟨Nat.le_sub_of_add_le hc, (Nat.sub_le _ _).trans hle⟩

omit hd in
/-- A low phase begins (R68). -/
theorem blockInv_endHigh (hl : s.cfg.legal = true) : BlockInv (endHigh s) where
  __ := h
  lineHigh := by simp
  highLine := by simp
  highCount := by simp
  lowCount := by simp [Config.one_le_lowCyc hl]
  latching hf := by
    obtain ⟨hin, hpos, hle, -⟩ := h.latching hf
    exact ⟨hin, hpos, hle, rfl⟩

theorem blockInv_nextBit (hl : s.cfg.legal = true) (hf : s.fwState = .send) (hn : 2 ≤ s.bsLeft) :
    BlockInv (nextBit s) := by
  obtain ⟨hin, ha, -, hle⟩ := h.sending hf
  exact blockInv_startBit hl hf hin ha (Nat.le_sub_of_add_le hn) ((Nat.sub_le _ _).trans hle) (by simp) hd
    (h.ferrQ_of_doneQ hd)

/-- The next byte of a colour (R83). -/
theorem blockInv_nextByte (hl : s.cfg.legal = true) (hf : s.fwState = .send) : BlockInv (nextByte s) := by
  obtain ⟨hin, ha, -⟩ := h.sending hf
  exact blockInv_loadByte _ hl hf hin ha hd (h.ferrQ_of_doneQ hd)

/-- SEND is left with the line low (R86, R88): the frame waits in IDLE. -/
theorem blockInv_stallFrame (hf : s.fwState = .send) (hb : s.btPhase = .low) : BlockInv (stallFrame s) := by
  obtain ⟨-, ha, -⟩ := h.sending hf
  exact blockInv_of_idle rfl (h.lineLow (.inr hb)) (by simp [ha]) (by simp [h.ferrQ_of_doneQ hd]) (by simp [hd])

theorem blockInv_padAbort (hf : s.fwState = .send) (hp : s.padFails = true) : BlockInv (padAbort s) := by
  have hpolicy : s.cfg.onPinError = .abort := by
    by_contra hc
    simp [State.padFails, hc] at hp
  exact blockInv_of_idle rfl rfl (fun _ => ⟨hpolicy, (h.sending hf).1⟩) (by simp [h.ferrQ_of_doneQ hd])
    (by simp [hd])

/-- END, wherever it is consumed (R85): the line is low there. -/
theorem blockInv_startLatch (hl : s.cfg.legal = true) (hline : s.pinQ = false) : BlockInv (startLatch s) where
  lineHigh := by simp [hline]
  highLine := by simp
  sending := by simp
  highCount := by simp
  lowCount := by simp
  latching := by
    obtain ⟨-, -, -, -, hrst, -⟩ := (Config.legal_iff s.cfg).1 hl
    simp [hline, hrst]
  aborting ha := ⟨(h.aborting ha).1, by simp⟩
  abortOpen := by simp
  errDone := by simp [h.ferrQ_of_doneQ hd]
  errAbort := by simp [h.ferrQ_of_doneQ hd]
  doneIdle := by simp [hd]

omit hd in
theorem blockInv_countLatch (hc : 2 ≤ s.latCnt) : BlockInv (countLatch s) where
  __ := h
  latching hf := by
    obtain ⟨hin, -, hle, hline⟩ := h.latching hf
    exact ⟨hin, Nat.le_sub_of_add_le hc, (Nat.sub_le _ _).trans hle, hline⟩

omit hd in
/-- The result is reported with nothing of the frame left (R90, R96). -/
theorem blockInv_endLatch (hf : s.fwState = .latch) : BlockInv (endLatch s) := by
  obtain ⟨hin, -, -, hline⟩ := h.latching hf
  exact blockInv_of_idle rfl hline (by simp) (fun ha => ⟨rfl, (h.aborting ha).1⟩) (fun _ => ⟨hin, rfl⟩)

/-- Every command in context (a): COLOR opens a frame or is discarded, a reserved word is recorded (R84 to R87). -/
theorem blockInv_effectOf_inIdle (i : Instr) (hl : s.cfg.legal = true) (hf : s.fwState = .idle) :
    BlockInv (effectOf i .inIdle s) := by
  have taken := blockInv_takeWord h
  cases i with
  | color g r b =>
    simp only [effectOf, colorEffect]
    split
    · exact taken
    · next ha =>
      exact blockInv_loadByte
        (s := { takeWord s with col := colourOf g r b, byteIdx := .green, inFrame := true, fwState := .send })
        g hl rfl rfl (by simpa using ha) hd (h.ferrQ_of_doneQ hd)
  | endFrame _ => exact blockInv_startLatch taken hd hl (h.lineLow (.inl (by simp [hf])))
  | rsvd2 _ => exact blockInv_recordBadCmd taken
  | rsvd3 _ => exact blockInv_recordBadCmd taken

/-- Every command in context (b): COLOR goes on with no gap, a reserved word stalls the frame (R84 to R87). -/
theorem blockInv_effectOf_atColourEnd (i : Instr) (hl : s.cfg.legal = true) (hf : s.fwState = .send)
    (hb : s.btPhase = .low) : BlockInv (effectOf i .atColourEnd s) := by
  have taken := blockInv_takeWord h
  cases i with
  | color g r b =>
    obtain ⟨hin, ha, -⟩ := h.sending hf
    exact blockInv_loadByte g hl hf hin ha hd (h.ferrQ_of_doneQ hd)
  | endFrame _ => exact blockInv_startLatch taken hd hl (h.lineLow (.inr hb))
  | rsvd2 _ => exact blockInv_stallFrame (blockInv_recordBadCmd taken) hd hf hb
  | rsvd3 _ => exact blockInv_stallFrame (blockInv_recordBadCmd taken) hd hf hb

theorem blockInv_consumeAs (i : Instr) (hl : s.cfg.legal = true) : BlockInv (consumeAs (effectOf i) s) := by
  cases hc : s.context with
  | none => rwa [consumeAs_none hc]
  | some c =>
    rw [consumeAs_some hc]
    cases c with
    | inIdle => exact blockInv_effectOf_inIdle h hd i hl (context_eq_inIdle.1 hc).2
    | atColourEnd =>
      obtain ⟨-, hf, -, hb, -⟩ := context_eq_atColourEnd.1 hc
      exact blockInv_effectOf_atColourEnd h hd i hl hf hb

end Rules

/-- Each arm of R93's case, with what its condition says. -/
theorem blockInv_ruleEffect {s : State} (h : BlockInv s) (hl : s.cfg.legal = true) :
    BlockInv (ruleEffect s.edgeRule (openEdge s)) := by
  have ho := blockInv_openEdge h
  have hd := openEdge_doneQ s
  have hlo : (openEdge s).cfg.legal = true := by simpa using hl
  cases hf : s.fwState with
  | idle =>
    rw [edgeRule_idle hf]
    split
    · exact blockInv_consumeAs ho hd _ hlo
    · exact ho
  | latch =>
    rw [edgeRule_latch hf]
    split
    · next hc => exact blockInv_countLatch ho (by simpa using hc)
    · exact blockInv_endLatch ho (by simpa using hf)
  | send =>
    have hfo : (openEdge s).fwState = .send := by simpa using hf
    cases hp : s.padFails with
    | true => rw [edgeRule_abort hf hp]; exact blockInv_padAbort ho hd hfo (by simpa using hp)
    | false =>
      cases hb : s.btPhase with
      | high =>
        rw [edgeRule_high hf hp hb]
        split
        · next hc => exact blockInv_countPhase ho (by simpa using hc)
        · exact blockInv_endHigh ho hlo
      | low =>
        rw [edgeRule_low hf hp hb]
        split_ifs with hc hn hi hv
        · exact blockInv_countPhase ho (by simpa using hc)
        · exact blockInv_nextBit ho hd hlo hfo (by simpa using hn)
        · exact blockInv_nextByte ho hd hlo hfo
        · exact blockInv_consumeAs ho hd _ hlo
        · exact blockInv_stallFrame ho hd hfo (by simpa using hb)

theorem blockInv_stepState {s : State} (h : BlockInv s) (hl : s.cfg.legal = true) : BlockInv (stepState s) := by
  cases hr : s.pins.rst with
  | true => rw [stepState_of_rst hr]; exact blockInv_resetWith _ _
  | false => rw [stepState_of_not_rst hr]; exact blockInv_nextCycle (blockInv_ruleEffect h hl)

/-- Settles O34, by the rule of the edge: each arm of R93 keeps the invariant once the default clears are made. -/
theorem stepKeepsTheInvariant : Obligations.StepKeepsTheInvariant := by
  intro s t h hstep
  obtain ⟨hl, rfl⟩ := step_next_iff.1 hstep
  exact blockInv_stepState h hl

/-! ## Runs keep what every step keeps -/

theorem run_keeps {P : State → Prop} (hstep : ∀ s t, P s → step s = .next t → P t) (n : Nat) :
    ∀ {s t : State}, P s → run n s = .next t → P t := by
  induction n with
  | zero =>
    intro s t hs hrun
    cases hrun
    exact hs
  | succ n ih =>
    intro s t hs hrun
    rw [run] at hrun
    split at hrun
    · next u hu => exact ih (hstep s u hs hu) hrun
    · cases hrun
    · cases hrun

theorem step_cfg {s t : State} (h : step s = .next t) : t.cfg = s.cfg := by
  obtain ⟨-, rfl⟩ := step_next_iff.1 h
  exact stepState_cfg s

/-- R45 item 7, its first half. -/
theorem BlockInv.lineLow_of_not_busy {s : State} (h : BlockInv s) (hbusy : s.busyO = false) : s.doutO = false := by
  have hf : s.fwState = .idle := by
    by_contra hf
    simp [State.busyO, hf] at hbusy
  exact h.lineLow (.inl (by simp [hf]))

/-- R25. -/
theorem BlockInv.no_error_of_ignore {s : State} (h : BlockInv s) (hc : s.cfg.onPinError = .ignore) :
    s.frameErrO = false := by
  by_contra he
  have := h.errAbort (by simpa [State.frameErrO] using he)
  simp [hc] at this

/-- Settles O35: the invariant holds at reset and every step keeps it and the configuration. -/
theorem reachableStatesMeetTheInvariant : Obligations.ReachableStatesMeetTheInvariant := by
  intro n c e t hrun
  obtain ⟨hinv, rfl⟩ := run_keeps (P := fun s => BlockInv s ∧ s.cfg = c)
    (fun s t ⟨h, hc⟩ hst => ⟨stepKeepsTheInvariant s t h hst, (step_cfg hst).trans hc⟩) n
    ⟨blockInv_resetWith c e, rfl⟩ hrun
  exact ⟨hinv, hinv.lineLow_of_not_busy, hinv.no_error_of_ignore⟩

/-! ## The status bits (R34, R35) -/

/-- Only the end of a latch period writes the result (R90). -/
theorem ruleEffect_result (r : EdgeRule) {s : State} (hd : s.doneQ = false) (he : s.ferrQ = false) :
    (ruleEffect r s).doneQ = decide (r = .endLatch) ∧
      (ruleEffect r s).ferrQ = (decide (r = .endLatch) && s.abort) := by
  cases r with
  | consume =>
    simp only [ruleEffect]
    unfold consumeAs
    split
    · next c _ =>
      obtain ⟨-, -, -, hd', he', -⟩ := effectOf_frame (decode s.bufWord) c s
      simp [hd', he', hd, he]
    · simp [hd, he]
  | endLatch => simp [ruleEffect]
  | _ => simp [ruleEffect, hd, he]

theorem edgeRule_eq_endLatch {s : State} : s.edgeRule = .endLatch ↔ s.fwState = .latch ∧ s.latCnt < 2 := by
  cases hf : s.fwState with
  | latch =>
    rw [edgeRule_latch hf]
    split
    · next hc => simpa using Nat.lt_of_succ_le hc
    · next hc => simpa using hc
  | idle => rw [edgeRule_idle hf]; split <;> simp
  | send =>
    cases hp : s.padFails with
    | true => simp [edgeRule_abort hf hp]
    | false =>
      cases hb : s.btPhase with
      | high => rw [edgeRule_high hf hp hb]; split <;> simp
      | low => rw [edgeRule_low hf hp hb]; split_ifs <;> simp

/-- The result an edge leaves. -/
theorem stepState_result (s : State) :
    (stepState s).doneQ = (!s.pins.rst && decide (s.edgeRule = .endLatch)) ∧
      (stepState s).ferrQ = (!s.pins.rst && decide (s.edgeRule = .endLatch) && s.abort) := by
  cases hr : s.pins.rst with
  | true => simp [stepState_of_rst hr]
  | false =>
    obtain ⟨hd, he⟩ := ruleEffect_result s.edgeRule (openEdge_doneQ s) (openEdge_ferrQ s)
    simp [stepState_of_not_rst hr, hd, he]

/-- Settles O31: the result is that of the edge's rule, and a reported frame has left the latch period. -/
theorem doneIsAOneCyclePulse : Obligations.DoneIsAOneCyclePulse := by
  have result (s t : State) (hstep : step s = .next t) :
      (t.doneQ = true ↔ s.pins.rst = false ∧ s.fwState = .latch ∧ s.latCnt < 2) ∧
      (t.ferrQ = true ↔ s.pins.rst = false ∧ s.fwState = .latch ∧ s.latCnt < 2 ∧ s.abort = true) := by
    obtain ⟨-, rfl⟩ := step_next_iff.1 hstep
    obtain ⟨hd, he⟩ := stepState_result s
    simp [hd, he, edgeRule_eq_endLatch, and_assoc]
  refine ⟨result, fun s t h hstep hdone => ?_⟩
  by_contra ht
  obtain ⟨-, hlatch, -⟩ := (result s t hstep).1.1 (by simpa using ht)
  simp [(h.doneIdle hdone).1] at hlatch

theorem decode_op (w : CmdWord) : (decode w).op = opField w := by
  apply BitVec.eq_of_toNat_eq
  have hlt := (opField w).isLt
  unfold decode
  interval_cases (opField w).toNat <;> rfl

/-- Bit 25 of a word tells the reserved commands (R58, R61). -/
theorem decode_op_getLsbD_one (w : CmdWord) : (decode w).op.getLsbD 1 = w.getLsbD 25 := by
  simp [decode_op, opField]

/-- Only a reserved word is recorded (R98). -/
theorem effectOf_badCmdQ (i : Instr) (c : Context) (s : State) :
    (effectOf i c s).badCmdQ = (s.badCmdQ || i.op.getLsbD 1) := by
  have rejected : (rejectWord c s).badCmdQ = true := by cases c <;> rfl
  cases i with
  | color g r b =>
    cases c with
    | inIdle => simp only [effectOf, colorEffect]; split <;> simp [Instr.op]
    | atColourEnd => simp [effectOf, colorEffect, Instr.op]
  | endFrame _ => simp [effectOf, endEffect, Instr.op]
  | rsvd2 _ => simp [effectOf, rejected, Instr.op]
  | rsvd3 _ => simp [effectOf, rejected, Instr.op]

theorem stepState_badCmdQ {s : State} (hr : s.pins.rst = false) :
    (stepState s).badCmdQ = (s.badCmdQ || (decide (s.edgeRule = .consume) && s.bufWord.getLsbD 25)) := by
  rw [stepState_of_not_rst hr, nextCycle_badCmdQ]
  cases hrule : s.edgeRule with
  | consume =>
    obtain ⟨hb, hc⟩ := (edgeRule_eq_consume hr).1 hrule
    obtain ⟨c, hc⟩ := Option.isSome_iff_exists.mp hc
    simp only [ruleEffect]
    rw [consumeAs_some (by simpa using hc), effectOf_badCmdQ, decode_op_getLsbD_one]
    simp [hb]
  | _ => simp [ruleEffect]

/-- Settles O32: a consumed word with bit 25 set is recorded, no rule clears the bit, and reset does. -/
theorem badCmdIsStickyUntilReset : Obligations.BadCmdIsStickyUntilReset := by
  intro s t hstep
  obtain ⟨-, rfl⟩ := step_next_iff.1 hstep
  cases hr : s.pins.rst with
  | true => simp [stepState_of_rst hr]
  | false => simp [stepState_badCmdQ hr, edgeRule_eq_consume hr, consumable_iff, and_assoc]

/-! ## Inputs that do not matter (R19) -/

/-- No command reads the inputs once its context is known. -/
theorem effectOf_withPins (i : Instr) (c : Context) (p : Inputs) (s : State) :
    effectOf i c (withPins p s) = withPins p (effectOf i c s) := by
  cases i with
  | color g r b =>
    cases c with
    | inIdle =>
      simp only [effectOf, colorEffect]
      rw [apply_ite (withPins p)]
      rfl
    | atColourEnd => rfl
  | endFrame _ => rfl
  | rsvd2 _ => cases c <;> rfl
  | rsvd3 _ => cases c <;> rfl

/-- An edge's rule does not read `in_data_i`. -/
theorem ruleEffect_inData (r : EdgeRule) (p : Inputs) (w : CmdWord) (s : State) :
    nextCycle (ruleEffect r (withPins { p with inData := w } s)) = nextCycle (ruleEffect r (withPins p s)) := by
  cases r with
  | consume =>
    have hc : (withPins { p with inData := w } s).context = (withPins p s).context := rfl
    simp only [ruleEffect]
    cases h : (withPins p s).context with
    | none => rw [consumeAs_none h, consumeAs_none (hc.trans h)]; rfl
    | some c =>
      rw [consumeAs_some h, consumeAs_some (hc.trans h), effectOf_withPins, effectOf_withPins]
      rfl
  | _ => rfl

theorem openEdge_of_not_accepts {s : State} (h : s.accepts = false) : openEdge s = clearResult s := by
  simp [openEdge, acceptOffered, h]

/-- An edge without acceptance is reset, or its rule on the registers alone. -/
theorem stepState_inData {p : Inputs} {s : State} (w : CmdWord) (ha : (withPins p s).accepts = false) :
    stepState (withPins { p with inData := w } s) = stepState (withPins p s) := by
  have ha' : (withPins { p with inData := w } s).accepts = false := ha
  have hrst : (withPins { p with inData := w } s).pins.rst = (withPins p s).pins.rst := rfl
  cases hr : (withPins p s).pins.rst with
  | true => rw [stepState_of_rst hr, stepState_of_rst (hrst.trans hr)]; rfl
  | false =>
    rw [stepState_of_not_rst hr, stepState_of_not_rst (hrst.trans hr), openEdge_of_not_accepts ha,
      openEdge_of_not_accepts ha']
    exact ruleEffect_inData _ p w (clearResult s)

theorem step_inData {p : Inputs} {s : State} (w : CmdWord) (ha : (withPins p s).accepts = false) :
    step (withPins { p with inData := w } s) = step (withPins p s) := by
  rw [step, step, clockEdge_eq, clockEdge_eq, stepState_inData w ha]
  rfl

/-- Settles O17: acceptance alone reads the offered word; reset and the rules do not. -/
theorem unacceptedDataHasNoEffect : Obligations.UnacceptedDataHasNoEffect := fun _ w ha => step_inData w ha

/-! ## Registers that do not matter (R38, R96) -/

section Live

variable {s t : State} (h : LiveEq s t)
include h

theorem LiveEq.pins : s.pins = t.pins := pins_congr h.env

theorem LiveEq.padFails : s.padFails = t.padFails := by simp [State.padFails, h.cfg, h.fwState, h.pins]

theorem LiveEq.accepts : s.accepts = t.accepts := by simp [State.accepts, State.inReadyO, h.bufValid, h.pins]

/-- The rule of the edge reads, in each phase, only registers that are agreed on there. -/
theorem LiveEq.edgeRule : s.edgeRule = t.edgeRule := by
  have hft := h.fwState
  cases hf : s.fwState with
  | idle => rw [edgeRule_idle hf, edgeRule_idle (hft ▸ hf), h.bufValid]
  | latch => rw [edgeRule_latch hf, edgeRule_latch (hft ▸ hf), h.latching hf]
  | send =>
    obtain ⟨-, hi, -, hn, hb, hc⟩ := h.sending hf
    simp only [State.edgeRule, ← hft, hf, h.padFails, h.bufValid, hi, hn, hb, hc]

theorem LiveEq.context : s.context = t.context := by
  unfold State.context State.colDone State.bsDone State.btFin
  rw [← h.pins, ← h.fwState, ← h.padFails]
  cases hf : s.fwState with
  | idle => rfl
  | latch => rfl
  | send =>
    obtain ⟨-, hi, -, hn, hb, hc⟩ := h.sending hf
    rw [hi, hn, hb, hc]

theorem liveEq_nextCycle : LiveEq (nextCycle s) (nextCycle t) := { h with env := congrArg List.tail h.env }

theorem liveEq_takeWord : LiveEq (takeWord s) (takeWord t) := { h with bufValid := rfl, bufWord := by simp }

theorem liveEq_openEdge : LiveEq (openEdge s) (openEdge t) where
  cfg := by simpa using h.cfg
  env := by simpa using h.env
  fwState := by simpa using h.fwState
  inFrame := by simpa using h.inFrame
  abort := by simpa using h.abort
  pinQ := by simpa using h.pinQ
  bufValid := by simp [h.bufValid, h.accepts]
  bufWord := by
    simp only [openEdge_bufValid, openEdge_bufWord, ← h.accepts, ← h.pins]
    cases ha : s.accepts with
    | true => simp
    | false => simpa using h.bufWord
  sending := by simpa using h.sending
  latching := by simpa using h.latching

theorem liveEq_stallFrame : LiveEq (stallFrame s) (stallFrame t) :=
  { h with fwState := rfl, sending := by simp, latching := by simp }

theorem liveEq_startLatch : LiveEq (startLatch s) (startLatch t) :=
  { h with fwState := rfl, inFrame := rfl, sending := by simp, latching := fun _ => congrArg Config.trstCyc h.cfg }

theorem liveEq_rejectWord (c : Context) : LiveEq (rejectWord c s) (rejectWord c t) := by
  have recorded : LiveEq (recordBadCmd (takeWord s)) (recordBadCmd (takeWord t)) := { liveEq_takeWord h with }
  cases c with
  | inIdle => exact recorded
  | atColourEnd => exact liveEq_stallFrame recorded

/-- COLOR writes every register of the serializer and the bit timer. -/
theorem liveEq_colorEffect (g r b : Byte) (c : Context) : LiveEq (colorEffect g r b c s) (colorEffect g r b c t) := by
  have taken := liveEq_takeWord h
  have loaded : LiveEq (loadColour g r b (takeWord s)) (loadColour g r b (takeWord t)) :=
    { taken with
      pinQ := rfl
      sending := fun _ => ⟨rfl, rfl, rfl, rfl, rfl, congrArg (Config.highCyc · _) h.cfg⟩ }
  cases c with
  | inIdle =>
    simp only [colorEffect, h.abort]
    split
    · exact taken
    · exact { loaded with
        inFrame := rfl
        fwState := rfl
        sending := fun _ => ⟨rfl, rfl, rfl, rfl, rfl, congrArg (Config.highCyc · _) h.cfg⟩
        latching := by simp }
  | atColourEnd => exact loaded

theorem liveEq_effectOf (i : Instr) (c : Context) : LiveEq (effectOf i c s) (effectOf i c t) := by
  cases i with
  | color g r b => exact liveEq_colorEffect h g r b c
  | endFrame _ => exact liveEq_startLatch (liveEq_takeWord h)
  | rsvd2 _ => exact liveEq_rejectWord h c
  | rsvd3 _ => exact liveEq_rejectWord h c

theorem liveEq_consumeAs (i : Instr) : LiveEq (consumeAs (effectOf i) s) (consumeAs (effectOf i) t) := by
  cases hc : s.context with
  | none => rwa [consumeAs_none hc, consumeAs_none (h.context ▸ hc)]
  | some c => rw [consumeAs_some hc, consumeAs_some (h.context ▸ hc)]; exact liveEq_effectOf h i c

theorem liveEq_padAbort : LiveEq (padAbort s) (padAbort t) :=
  { h with pinQ := rfl, fwState := rfl, abort := rfl, sending := by simp, latching := by simp }

theorem liveEq_countPhase : LiveEq (countPhase s) (countPhase t) where
  __ := h
  sending hf := by
    obtain ⟨hcol, hi, hv, hn, hb, hc⟩ := h.sending hf
    exact ⟨hcol, hi, hv, hn, hb, congrArg (· - 1) hc⟩

theorem liveEq_endHigh : LiveEq (endHigh s) (endHigh t) where
  __ := h
  pinQ := rfl
  sending hf := by
    obtain ⟨hcol, hi, hv, hn, -⟩ := h.sending hf
    exact ⟨hcol, hi, hv, hn, rfl, by simp [hv, h.cfg]⟩

theorem liveEq_nextBit : LiveEq (nextBit s) (nextBit t) where
  __ := h
  pinQ := rfl
  sending hf := by
    obtain ⟨hcol, hi, hv, hn, -⟩ := h.sending hf
    exact ⟨hcol, hi, by simp [hv], by simp [hn], rfl, by simp [hv, h.cfg]⟩

theorem liveEq_nextByte : LiveEq (nextByte s) (nextByte t) where
  __ := h
  pinQ := rfl
  sending hf := by
    obtain ⟨hcol, hi, -⟩ := h.sending hf
    exact ⟨hcol, by simp [hi], by simp [hcol, hi], rfl, rfl, by simp [hcol, hi, h.cfg]⟩

theorem liveEq_countLatch : LiveEq (countLatch s) (countLatch t) :=
  { h with latching := fun hf => congrArg (· - 1) (h.latching hf) }

theorem liveEq_endLatch : LiveEq (endLatch s) (endLatch t) :=
  { h with fwState := rfl, abort := rfl, sending := by simp, latching := by simp }

/-- Every rule; the buffered word is agreed on where one is consumed. -/
theorem liveEq_ruleEffect (r : EdgeRule) (hbuf : r = .consume → s.bufValid = true) :
    LiveEq (ruleEffect r s) (ruleEffect r t) := by
  cases r with
  | wait => exact h
  | consume => simp only [ruleEffect, h.bufWord (hbuf rfl)]; exact liveEq_consumeAs h _
  | padAbort => exact liveEq_padAbort h
  | countPhase => exact liveEq_countPhase h
  | endHigh => exact liveEq_endHigh h
  | nextBit => exact liveEq_nextBit h
  | nextByte => exact liveEq_nextByte h
  | stall => exact liveEq_stallFrame h
  | countLatch => exact liveEq_countLatch h
  | endLatch => exact liveEq_endLatch h

theorem liveEq_stepState : LiveEq (stepState s) (stepState t) := by
  cases hr : s.pins.rst with
  | true =>
    rw [stepState_of_rst hr, stepState_of_rst (h.pins ▸ hr), h.cfg, h.env]
    constructor <;> simp
  | false =>
    rw [stepState_of_not_rst hr, stepState_of_not_rst (h.pins ▸ hr), ← h.edgeRule]
    refine liveEq_nextCycle (liveEq_ruleEffect (liveEq_openEdge h) _ fun hrule => ?_)
    simp [((edgeRule_eq_consume hr).1 hrule).1]

/-- The line is a live register, and agreement lasts. -/
theorem LiveEq.lineTrace (n : Nat) : lineTrace n s = lineTrace n t := by
  induction n generalizing s t with
  | zero => rfl
  | succ n ih =>
    cases hl : s.cfg.legal with
    | true => rw [lineTrace_succ hl, lineTrace_succ (h.cfg ▸ hl), h.pinQ, ih (liveEq_stepState h)]
    | false => simp [Machine.lineTrace, step_illegal hl, step_illegal (h.cfg ▸ hl), State.doutO, h.pinQ]

end Live

/-- Settles O43: agreement on the live registers is kept by every rule, and they decide the result of the edge. -/
theorem leftoverRegistersAreUnobservable : Obligations.LeftoverRegistersAreUnobservable := by
  refine fun s t h => ⟨fun s' hstep => ?_, h.lineTrace⟩
  obtain ⟨hl, rfl⟩ := step_next_iff.1 hstep
  obtain ⟨hds, hes⟩ := stepState_result s
  obtain ⟨hdt, het⟩ := stepState_result t
  refine ⟨stepState t, step_eq (h.cfg ▸ hl), liveEq_stepState h, ?_, ?_⟩
  · rw [hds, hdt, h.pins, h.edgeRule]
  · rw [hes, het, h.pins, h.edgeRule, h.abort]

end Sys2Proof.Machine

/-! # The memory map: words in order, and a colour's bits in order (20_memory.md) -/

namespace Sys2Proof.Machine

/-! ## Words accepted and consumed, one edge at a time (R52, R81, R82) -/

theorem acceptedWords_succ {s : State} (hl : s.cfg.legal = true) (n : Nat) :
    acceptedWords (n + 1) s = (if s.accepts then [s.pins.inData] else []) ++ acceptedWords n (stepState s) := by
  simp [acceptedWords, step_eq hl]

theorem consumedWords_succ {s : State} (hl : s.cfg.legal = true) (n : Nat) :
    consumedWords (n + 1) s = (if s.consumesNow then [s.bufWord] else []) ++ consumedWords n (stepState s) := by
  simp [consumedWords, step_eq hl]

/-- One edge loses no word and doubles none: a full buffer accepts nothing, an empty one gives nothing away. -/
theorem pendingWords_stepState {s : State} (hr : s.pins.rst = false) :
    pendingWords s ++ (if s.accepts then [s.pins.inData] else []) =
      (if s.consumesNow then [s.bufWord] else []) ++ pendingWords (stepState s) := by
  simp only [pendingWords, State.consumesNow, stepState_bufValid hr, stepState_bufWord hr]
  by_cases hb : s.bufValid = true
  · by_cases hx : s.context.isSome = true <;> simp [hb, hx]
  · by_cases ha : s.accepts = true <;> simp [hb, ha]

/-- Settles O16, by induction on the steps: each edge keeps the words in order. -/
theorem wordsTakeEffectOnceInOrder : Obligations.WordsTakeEffectOnceInOrder := by
  intro n
  induction n with
  | zero =>
    intro s t _ hrun
    cases hrun
    simp [acceptedWords, consumedWords]
  | succ n ih =>
    intro s t hnr hrun
    cases hl : s.cfg.legal with
    | false => simp [run, step_illegal hl] at hrun
    | true =>
      rw [run_succ hl] at hrun
      rw [acceptedWords_succ hl, consumedWords_succ hl, ← List.append_assoc, pendingWords_stepState hnr.head,
        List.append_assoc, ih (stepState s) t hnr.next hrun, List.append_assoc]

/-! ## Stretches of the line -/

/-- From `s` on, `n` cycles have the levels `w` on the line, and the last of them is the cycle of `t`. -/
structure Emits (n : Nat) (w : List Bool) (s t : State) : Prop where
  pos : 1 ≤ n
  trace : lineTrace n s = w
  last : stepStates (n - 1) s = t

section Emits

variable {m n : Nat} {w w' : List Bool} {s t u : State}

theorem emits_one (hl : s.cfg.legal = true) : Emits 1 [s.pinQ] s s := ⟨le_rfl, by rw [lineTrace_succ hl]; rfl, rfl⟩

theorem Emits.cfg (h : Emits m w s t) : t.cfg = s.cfg := by rw [← h.last, stepStates_cfg]

theorem Emits.stepStates_eq (h : Emits m w s t) : stepStates m s = stepState t := by
  rw [stepStates_pred s h.pos, h.last]

/-- Two stretches with no cycle between them. -/
theorem Emits.append (hl : s.cfg.legal = true) (h : Emits m w s t) (h' : Emits n w' (stepState t) u) :
    Emits (m + n) (w ++ w') s u where
  pos := by have := h.pos; omega
  trace := by rw [lineTrace_add hl, h.stepStates_eq, h.trace, h'.trace]
  last := by rw [Nat.add_sub_assoc h'.pos, stepStates_add, h.stepStates_eq, h'.last]

/-- The edge that ends the stretch is one of its undisturbed cycles. -/
theorem Emits.lastEdge (h : Emits m w s t) (hu : Undisturbed m s) : t.pins.rst = false ∧ t.padFails = false := by
  rw [← h.last]
  exact Undisturbed.head (Undisturbed.after (m := m - 1) (by rwa [Nat.sub_add_cancel h.pos]))

theorem Emits.undisturbed_next (h : Emits m w s t) (hu : Undisturbed (m + n) s) : Undisturbed n (stepState t) :=
  h.stepStates_eq ▸ hu.after

end Emits

/-! ## A bit (R73) -/

/-- The first cycle of a bit (R67), the bit being the top one of `bs_byte` (R78). -/
structure BitStart (s : State) : Prop where
  fwState : s.fwState = .send
  btPhase : s.btPhase = .high
  btCnt : s.btCnt = s.cfg.highCyc (s.bsByte.getLsbD 7)
  pinQ : s.pinQ = true

/-- The last cycle of a bit (R69). -/
structure BitEnd (s : State) : Prop where
  fwState : s.fwState = .send
  btPhase : s.btPhase = .low
  btCnt : s.btCnt = 1
  pinQ : s.pinQ = false

/-- A phase counted down from `n` holds its level for `n` cycles (R68, R69). -/
theorem phase_emits {n : Nat} {s : State} (hl : s.cfg.legal = true) (hf : s.fwState = .send) (hn : 1 ≤ n)
    (hc : s.btCnt = n) (hu : Undisturbed n s) :
    ∃ t, Emits n (List.replicate n s.pinQ) s t ∧ KeepsBit s t ∧ t.btCnt = 1 ∧ t.btPhase = s.btPhase ∧
      t.pinQ = s.pinQ := by
  obtain ⟨k, rfl⟩ := Nat.exists_eq_add_of_le' hn
  obtain ⟨htrace, hlast⟩ := countPhase_run k s hl hf hc (hu.mono k.le_succ)
  exact ⟨_, ⟨hn, htrace, rfl⟩, hlast⟩

/-- The high phase and the low phase of a bit, back to back (R73). -/
theorem bit_emits {s : State} {b : Bool} (hl : s.cfg.legal = true) (hs : BitStart s) (hb : s.bsByte.getLsbD 7 = b)
    (hu : Undisturbed (bitCycles s.cfg b) s) :
    ∃ t, Emits (bitCycles s.cfg b) (bitWave s.cfg b) s t ∧ KeepsBit s t ∧ BitEnd t := by
  subst hb
  obtain ⟨t, high, keep, hc, hphase, -⟩ := phase_emits hl hs.fwState (Config.one_le_highCyc hl _) hs.btCnt
    (hu.mono (Nat.le_add_right _ _))
  obtain ⟨hr, hp⟩ := high.lastEdge (hu.mono (Nat.le_add_right _ _))
  have hf : t.fwState = .send := keep.fwState.trans hs.fwState
  obtain ⟨keep', hc', hphase', hpin'⟩ := endHigh_edge hf hr hp (hphase.trans hs.btPhase) (by omega)
  rw [keep.cfg, keep.bsByte] at hc'
  have hl' : (stepState t).cfg.legal = true := by rw [keep'.cfg, keep.cfg, hl]
  obtain ⟨u, low, keep'', hend, hlow, hline⟩ := phase_emits hl' (keep'.fwState.trans hf)
    (Config.one_le_lowCyc hl _) hc' (high.undisturbed_next hu)
  rw [hs.pinQ] at high
  rw [hpin'] at low
  exact ⟨u, high.append hl low, (keep.trans keep').trans keep'',
    ⟨keep''.fwState.trans (keep'.fwState.trans hf), hlow.trans hphase', hend, hline.trans hpin'⟩⟩

/-! ## A byte (R76, R79) -/

/-- Shifting a byte left takes its top bit off the front (R76). -/
theorem take_msbFirst_succ {n : Nat} (hn : n ≤ 7) (v : Byte) :
    (msbFirst v).take (n + 1) = v.getLsbD 7 :: (msbFirst (v <<< 1)).take n := by
  rw [msbFirst, msbFirst, ← List.map_take, ← List.map_take, List.take_range, List.take_range,
    Nat.min_eq_left (by omega), Nat.min_eq_left (by omega), List.range_succ_eq_map, List.map_cons, List.map_map]
  refine congrArg _ (List.map_congr_left fun i hi => ?_)
  have hi : i < n := List.mem_range.1 hi
  have shifted : (v <<< 1).getLsbD (8 - 1 - i) = v.getLsbD (8 - 1 - i - 1) := by
    rw [BitVec.getLsbD_shiftLeft, decide_eq_true (by omega), decide_eq_false (by omega)]
    rfl
  rw [shifted]
  rfl

/-- The next bit of the byte follows with no gap (R76). -/
theorem BitEnd.nextBit {s : State} (hs : BitEnd s) (hn : 2 ≤ s.bsLeft) (hr : s.pins.rst = false)
    (hp : s.padFails = false) :
    BitStart (stepState s) ∧ KeepsFrame s (stepState s) ∧ (stepState s).bsByte = s.bsByte <<< 1 ∧
      (stepState s).bsLeft = s.bsLeft - 1 := by
  have hone := hs.btCnt
  obtain ⟨keep, hbyte, hleft, hcnt, hphase, hpin⟩ := nextBit_edge hs.fwState hr hp hs.btPhase (by omega) hn
  have htop : (s.bsByte <<< 1).getLsbD 7 = s.bsByte.getLsbD 6 := by simp
  exact ⟨⟨keep.fwState.trans hs.fwState, hphase, by rw [hcnt, hbyte, htop, keep.cfg], hpin⟩, keep, hbyte, hleft⟩

/-- The `n + 1` bits left of a byte, one after the other. -/
theorem bits_emit (n : Nat) : ∀ {s : State}, s.cfg.legal = true → BitStart s → n ≤ 7 → s.bsLeft = n + 1 →
    Undisturbed (((msbFirst s.bsByte).take (n + 1)).map (bitCycles s.cfg)).sum s →
      ∃ t, Emits (((msbFirst s.bsByte).take (n + 1)).map (bitCycles s.cfg)).sum
          (((msbFirst s.bsByte).take (n + 1)).flatMap (bitWave s.cfg)) s t ∧
        KeepsFrame s t ∧ BitEnd t ∧ t.bsByte = s.bsByte <<< n ∧ t.bsLeft = 1 := by
  induction n with
  | zero =>
    intro s hl hs hn hleft hu
    rw [take_msbFirst_succ hn] at hu ⊢
    obtain ⟨t, bit, keep, hend⟩ := bit_emits hl hs rfl (by simpa using hu)
    exact ⟨t, by simpa using bit, keep.toKeepsFrame, hend, by simp [keep.bsByte], keep.bsLeft.trans hleft⟩
  | succ n ih =>
    intro s hl hs hn hleft hu
    rw [take_msbFirst_succ hn] at hu ⊢
    simp only [List.map_cons, List.sum_cons, List.flatMap_cons] at hu ⊢
    obtain ⟨t, bit, keep, hend⟩ := bit_emits hl hs rfl (hu.mono (Nat.le_add_right _ _))
    obtain ⟨hr, hp⟩ := bit.lastEdge (hu.mono (Nat.le_add_right _ _))
    obtain ⟨hs', keep', hbyte, hleft'⟩ := hend.nextBit (by rw [keep.bsLeft]; omega) hr hp
    rw [keep.bsByte] at hbyte
    rw [keep.bsLeft, hleft] at hleft'
    have hcfg : (stepState t).cfg = s.cfg := keep'.cfg.trans keep.cfg
    have hrest := bit.undisturbed_next hu
    rw [← hcfg, ← hbyte] at hrest
    obtain ⟨u, rest, keep'', hend', hbyte', hone⟩ := ih (hcfg ▸ hl) hs' (by omega) hleft' hrest
    rw [hcfg, hbyte] at rest
    refine ⟨u, bit.append hl rest, (keep.toKeepsFrame.trans keep').trans keep'', hend', ?_, hone⟩
    rw [hbyte', hbyte, ← BitVec.shiftLeft_add, Nat.add_comm]

/-- A whole byte (R79). -/
theorem byte_emits {s : State} {v : Byte} (hl : s.cfg.legal = true) (hs : BitStart s) (hv : s.bsByte = v)
    (hleft : s.bsLeft = 8) (hu : Undisturbed (waveCycles s.cfg v) s) :
    ∃ t, Emits (waveCycles s.cfg v) (wave s.cfg v) s t ∧ KeepsFrame s t ∧ BitEnd t ∧ t.bsByte = v <<< 7 ∧
      t.bsLeft = 1 := by
  subst hv
  exact bits_emit 7 hl hs le_rfl hleft hu

/-! ## A colour (R47, R83, R84) -/

/-- The first cycle of byte `i` of the colour `c` (R75, R83). -/
structure ByteStart (c : Colour) (i : ByteIdx) (s : State) : Prop extends BitStart s where
  col : s.col = c
  byteIdx : s.byteIdx = i
  bsByte : s.bsByte = colByte c i
  bsLeft : s.bsLeft = 8

/-- The last cycle of byte `i` of the colour `c` (R77). -/
structure ByteEnd (c : Colour) (i : ByteIdx) (s : State) : Prop extends BitEnd s where
  col : s.col = c
  byteIdx : s.byteIdx = i
  bsLeft : s.bsLeft = 1

theorem ByteStart.emits {s : State} {c : Colour} {i : ByteIdx} (hs : ByteStart c i s) (hl : s.cfg.legal = true)
    (hu : Undisturbed (waveCycles s.cfg (colByte c i)) s) :
    ∃ t, Emits (waveCycles s.cfg (colByte c i)) (wave s.cfg (colByte c i)) s t ∧ ByteEnd c i t := by
  obtain ⟨t, byte, keep, hend, -, hleft⟩ := byte_emits hl hs.toBitStart hs.bsByte hs.bsLeft hu
  exact ⟨t, byte, hend, keep.col.trans hs.col, keep.byteIdx.trans hs.byteIdx, hleft⟩

/-- The next byte follows with no gap (R83). -/
theorem ByteEnd.next {s : State} {c : Colour} {i : ByteIdx} (hs : ByteEnd c i s) (hi : i ≠ .blue)
    (hr : s.pins.rst = false) (hp : s.padFails = false) : ByteStart c i.next (stepState s) := by
  have hcnt := hs.btCnt
  have hleft := hs.bsLeft
  obtain ⟨hf, hbyte, hleft', hcnt', hphase, hpin, hidx, hcol, -⟩ :=
    nextByte_edge hs.fwState hr hp hs.btPhase (by omega) (by omega) (by rwa [hs.byteIdx])
  rw [hs.col, hs.byteIdx] at hbyte hcnt'
  exact ⟨⟨hf, hphase, by rw [hcnt', hbyte, stepState_cfg], hpin⟩, hcol.trans hs.col, by rw [hidx, hs.byteIdx],
    hbyte, hleft'⟩

/-- A byte that is not the last, and the start of the next. -/
theorem ByteStart.emits_next {s : State} {c : Colour} {i : ByteIdx} {n : Nat} (hs : ByteStart c i s) (hi : i ≠ .blue)
    (hl : s.cfg.legal = true) (hu : Undisturbed (waveCycles s.cfg (colByte c i) + n) s) :
    ∃ t, Emits (waveCycles s.cfg (colByte c i)) (wave s.cfg (colByte c i)) s t ∧
      ByteStart c i.next (stepState t) ∧ (stepState t).cfg = s.cfg ∧ Undisturbed n (stepState t) := by
  have hu' := hu.mono (Nat.le_add_right _ n)
  obtain ⟨t, byte, hend⟩ := hs.emits hl hu'
  obtain ⟨hr, hp⟩ := byte.lastEdge hu'
  exact ⟨t, byte, hend.next hi hr hp, (stepState_cfg t).trans byte.cfg, byte.undisturbed_next hu⟩

theorem wave_append (c : Config) (g r b : Byte) : wave c (g ++ r ++ b) = wave c g ++ wave c r ++ wave c b := by
  simp [wave, msbFirst_append]

theorem waveCycles_append (c : Config) (g r b : Byte) :
    waveCycles c (g ++ r ++ b) = waveCycles c g + waveCycles c r + waveCycles c b := by
  simp [waveCycles, msbFirst_append, Nat.add_assoc]

/-- A colour's three bytes, back to back (R83). -/
theorem colour_emits {s : State} {g r b : Byte} (hs : ByteStart (g ++ r ++ b) .green s) (hl : s.cfg.legal = true)
    (hu : Undisturbed (waveCycles s.cfg (g ++ r ++ b)) s) :
    ∃ t, Emits (waveCycles s.cfg (g ++ r ++ b)) (wave s.cfg (g ++ r ++ b)) s t ∧ ByteEnd (g ++ r ++ b) .blue t := by
  obtain ⟨hg, hr, hb⟩ := colByte_append g r b
  rw [waveCycles_append, Nat.add_assoc] at hu ⊢
  rw [wave_append, List.append_assoc]
  generalize g ++ r ++ b = c at *
  subst hg hr hb
  obtain ⟨t, green, hred, hcfg, hu⟩ := hs.emits_next (by decide) hl hu
  have hl' : (stepState t).cfg.legal = true := hcfg ▸ hl
  rw [← hcfg] at hu
  obtain ⟨u, red, hblue, hcfg', hu⟩ := hred.emits_next (by decide) hl' hu
  rw [← hcfg'] at hu
  obtain ⟨v, blue, hend⟩ := hblue.emits (hcfg' ▸ hl') hu
  rw [hcfg'] at blue
  have rest := red.append hl' blue
  rw [hcfg] at rest
  exact ⟨v, green.append hl rest, hend⟩

/-! ## The edge that consumes a COLOR (R84) -/

theorem decode_encode_color (g r b : Byte) : decode (encode (.color g r b)) = .color g r b := by
  simp [decode, opField_encode, Instr.op, greenField_encode, redField_encode, blueField_encode]

/-- Consumed for transmission, in either context, a COLOR starts its green byte. -/
theorem byteStart_of_color {s : State} {g r b : Byte} (hv : s.bufValid = true)
    (hw : s.bufWord = encode (.color g r b)) (hc : (InIdle s ∧ s.abort = false) ∨ AtColourEnd s) :
    ByteStart (g ++ r ++ b) .green (stepState s) := by
  have hr : s.pins.rst = false := hc.elim (·.1.1) (·.1)
  have hrule : s.edgeRule = .consume := (edgeRule_eq_consume hr).2 ⟨hv, consumable_iff.1 (hc.imp_left And.left)⟩
  have hgreen : g = colByte (g ++ r ++ b) .green := (colByte_append g r b).1.symm
  rw [stepState_of_not_rst hr, hrule, openEdge_of_bufValid hv]
  simp only [ruleEffect, clearResult_bufWord, hw, decode_encode_color]
  rcases hc with ⟨hidle, habort⟩ | hend
  · rw [consumeAs_some ((clearResult_context s).trans (inIdle_iff.1 hidle))]
    simp only [effectOf, colorEffect, clearResult_abort, habort]
    exact ⟨⟨rfl, rfl, rfl, rfl⟩, rfl, rfl, hgreen, rfl⟩
  · rw [consumeAs_some ((clearResult_context s).trans (atColourEnd_iff.1 hend))]
    obtain ⟨-, hsend, -⟩ := hend
    exact ⟨⟨hsend, rfl, rfl, rfl⟩, rfl, rfl, hgreen, rfl⟩

/-- Bits 23 to 0 of a word are its data, the most significant first (R47, R57). -/
theorem wave_dataField (c : Config) (w : CmdWord) :
    wave c (dataField w) = (List.range 24).flatMap fun k => bitWave c (w.getLsbD (23 - k)) := by
  rw [wave, msbFirst, List.flatMap_map]
  refine List.flatMap_congr fun k _ => ?_
  have hk : 23 - k < 24 := by omega
  simp [dataField, hk]

/-- Settles O39: the consuming edge starts the green byte, and each byte's last edge starts the next. -/
theorem colourWaveform : Obligations.ColourWaveform := by
  rintro s g r b w hl hv hbuf rfl hc hu
  have hdata : (encode (.color g r b)).extractLsb' 0 24 = g ++ r ++ b := dataField_encode _
  have hwave := wave_dataField s.cfg (encode (.color g r b))
  rw [dataField_encode, Instr.data] at hwave
  rw [hdata] at hu ⊢
  have first := emits_one hl
  have hstart := byteStart_of_color hv hbuf hc
  obtain ⟨t, colour, hend⟩ := colour_emits hstart (by simpa using hl) (by simpa using first.undisturbed_next hu)
  rw [stepState_cfg] at colour
  have all := first.append hl colour
  refine ⟨by rw [all.trace, hwave]; rfl, waveCycles_append _ _ _ _, t, ?_, hend.fwState, hend.btPhase, hend.btCnt,
    hend.bsLeft, hend.byteIdx, hend.pinQ⟩
  rw [run_eq hl, ← all.last, Nat.add_sub_cancel_left]

end Sys2Proof.Machine

/-! # Encoding: command words, their decoder, and the assembler (30_encoding.md R57 to R65) -/

namespace Sys2Proof

/-! ## The decoder, one equation for each `op` (R57, R58) -/

theorem decode_of_op_zero {w : CmdWord} (h : opField w = 0b00#2) :
    decode w = .color (greenField w) (redField w) (blueField w) := by simp [decode, h]

theorem decode_of_op_one {w : CmdWord} (h : opField w = 0b01#2) : decode w = .endFrame (dataField w) := by
  simp [decode, h]

theorem decode_of_op_two {w : CmdWord} (h : opField w = 0b10#2) : decode w = .rsvd2 (dataField w) := by
  simp [decode, h]

theorem decode_of_op_three {w : CmdWord} (h : opField w = 0b11#2) : decode w = .rsvd3 (dataField w) := by
  simp [decode, h]

theorem opField_cases (w : CmdWord) :
    opField w = 0b00#2 ∨ opField w = 0b01#2 ∨ opField w = 0b10#2 ∨ opField w = 0b11#2 := by
  generalize opField w = op
  decide +revert

theorem decode_data (w : CmdWord) : (decode w).data = dataField w := by
  rcases opField_cases w with h | h | h | h
  · rw [decode_of_op_zero h, Instr.data, dataField_eq_fields]
  · rw [decode_of_op_one h, Instr.data]
  · rw [decode_of_op_two h, Instr.data]
  · rw [decode_of_op_three h, Instr.data]

/-! ## Encoder and decoder are inverse to each other (R62) -/

theorem encode_decode (w : CmdWord) : encode (decode w) = w := by
  rw [encode, Machine.decode_op, decode_data, ← word_eq_fields]

theorem decode_encode (i : Instr) : decode (encode i) = i := by
  have hop := opField_encode i
  have hdata := dataField_encode i
  cases i with
  | color g r b => exact Machine.decode_encode_color g r b
  | endFrame x => rw [decode_of_op_one hop, hdata, Instr.data]
  | rsvd2 x => rw [decode_of_op_two hop, hdata, Instr.data]
  | rsvd3 x => rw [decode_of_op_three hop, hdata, Instr.data]

/-- The table's decoder reads every word as `decode` does. -/
theorem decodeTableWord_toNat (n : Nat) (w : CmdWord) : decodeTableWord n w.toNat = some (decode w) := by
  have hlt : w.toNat < 67108864 := w.isLt
  simp [decodeTableWord, decodeNat, hlt]

/-- Settles O1: each command's `op` selects its own arm of the decoder, which reads the operand back from the data. -/
theorem decodeInvertsEncode : Obligations.DecodeInvertsEncode := fun i _ =>
  ⟨decode_encode i, by rw [decodeTableWord_toNat, decode_encode]⟩

/-- Settles O3: each of the five words is the encoding of its command. -/
theorem writtenWordsDecode : Obligations.WrittenWordsDecode :=
  ⟨decode_encode (.color 0x00#8 0xFF#8 0x00#8), decode_encode (.color 0x01#8 0x80#8 0xA5#8),
    decode_encode (.endFrame 0xABCDEF#24), decode_encode (.rsvd2 0x000000#24), decode_encode (.rsvd3 0xFFFFFF#24)⟩

end Sys2Proof

namespace Sys2Proof.Machine

/-- Where a word is consumed, no command is a no-op: it empties the buffer (R82). -/
theorem exec_ne_self {s : State} (i : Instr) (hv : s.bufValid = true) (hc : InIdle s ∨ AtColourEnd s) :
    exec i s ≠ .next s := by
  obtain ⟨c, hc⟩ := Option.isSome_iff_exists.1 (consumable_iff.1 hc)
  rw [exec_eq, consumeAs_some hc]
  intro h
  have hsame : effectOf i c s = s := Host.Outcome.next.inj h
  have hempty := effectOf_bufValid i c s
  simp [hsame, hv] at hempty

/-- Settles O2: `decode` is `encode`'s inverse, with one arm for each `op`, and a consumed word leaves the buffer. -/
theorem everyWordIsExactlyOneCommand : Obligations.EveryWordIsExactlyOneCommand :=
  ⟨fun w => ⟨encode_decode w, fun i h => by rw [← h, decode_encode]⟩,
    fun _ => ⟨decode_of_op_zero, decode_of_op_one, decode_of_op_two, decode_of_op_three⟩,
    fun w _ => exec_ne_self (decode w)⟩

end Sys2Proof.Machine

namespace Sys2Proof

/-! ## The assembler's words (R63, R64) -/

theorem toNat_append_eq_add {m n : Nat} (x : BitVec m) (y : BitVec n) :
    (x ++ y).toNat = x.toNat * 2 ^ n + y.toNat := by
  rw [BitVec.toNat_append, ← Nat.shiftLeft_add_eq_or_of_lt y.isLt, Nat.shiftLeft_eq]

/-- The assembler's sum is the word that the encoder lays out field by field. -/
theorem encode_color_eq_ofNat (g r b : Byte) :
    encode (.color g r b) = BitVec.ofNat 26 (g.toNat * 65536 + r.toNat * 256 + b.toNat) := by
  have hg := g.isLt
  have hr := r.isLt
  have hb := b.isLt
  apply BitVec.eq_of_toNat_eq
  simp only [encode, Instr.op, Instr.data, toNat_append_eq_add, BitVec.toNat_ofNat]
  omega

@[simp] theorem AsmOp.byteOk_toNat (b : Byte) : AsmOp.byteOk b.toNat = true := by
  simpa [AsmOp.byteOk] using b.isLt

theorem AsmOp.assemble_color_toNat (g r b : Byte) :
    (AsmOp.color g.toNat r.toNat b.toNat).assemble = some (encode (.color g r b)) := by
  rw [encode_color_eq_ofNat]
  simp [AsmOp.assemble, AsmOp.wellFormed]

theorem AsmOp.assemble_color_of_lt {g r b : Nat} (hg : g < 256) (hr : r < 256) (hb : b < 256) :
    (AsmOp.color g r b).assemble =
      some (encode (.color (BitVec.ofNat 8 g) (BitVec.ofNat 8 r) (BitVec.ofNat 8 b))) := by
  rw [← AsmOp.assemble_color_toNat, BitVec.toNat_ofNat, BitVec.toNat_ofNat, BitVec.toNat_ofNat,
    Nat.mod_eq_of_lt hg, Nat.mod_eq_of_lt hr, Nat.mod_eq_of_lt hb]

theorem AsmOp.assemble_color_eq_none {g r b : Nat} (h : 256 ≤ g ∨ 256 ≤ r ∨ 256 ≤ b) :
    (AsmOp.color g r b).assemble = none := by
  have hbad : (AsmOp.color g r b).wellFormed = false := by
    simp only [AsmOp.wellFormed, AsmOp.byteOk, Bool.and_eq_false_iff, decide_eq_false_iff_not]
    omega
  simp [AsmOp.assemble, hbad]

theorem AsmOp.assemble_word (w : Nat) :
    (AsmOp.word w).assemble = if w < 67108864 then some (BitVec.ofNat 26 w) else none := by
  simp [AsmOp.assemble, AsmOp.wellFormed]

theorem AsmOp.assemble_endFrame : AsmOp.endFrame.assemble = some (encode (.endFrame 0#24)) := rfl

end Sys2Proof

namespace Sys2Proof.Machine

theorem offersOf_cons {n : Option Nat} {op : AsmOp} {w : CmdWord} {ps : List (Option Nat × AsmOp)} {os : List Offer}
    (hw : op.assemble = some w) (hs : offersOf ps = some os) :
    offersOf ((n, op) :: ps) = some ({ notBefore := n.getD 0, word := w } :: os) := by
  simp [offersOf, hw, hs]

/-- A colour as the operands of a FRAME line. -/
def colourOperands (p : Byte × Byte × Byte) : Nat × Nat × Nat := (p.1.toNat, p.2.1.toNat, p.2.2.toNat)

theorem frame_wellFormed (cs : List (Byte × Byte × Byte)) :
    (AsmLine.frame (cs.map colourOperands)).wellFormed = true := by
  simp [AsmLine.wellFormed, colourOperands]

theorem offersOf_expand_frame (cs : List (Byte × Byte × Byte)) :
    offersOf (AsmLine.frame (cs.map colourOperands)).expand = some (frameOffers cs) := by
  induction cs with
  | nil => exact offersOf_cons AsmOp.assemble_endFrame rfl
  | cons p cs ih => exact offersOf_cons (AsmOp.assemble_color_toNat p.1 p.2.1 p.2.2) ih

theorem assembleProgram_frame (cs : List (Byte × Byte × Byte)) :
    assembleProgram [.frame (cs.map colourOperands)] = some (frameOffers cs) := by
  simp [assembleProgram, frame_wellFormed, offersOf_expand_frame]

/-- Settles O4: a COLOR line assembles to the command's own word, so decoding gives the command back; a frame is
assembled colour by colour. -/
theorem assembledWordsDecode : Obligations.AssembledWordsDecode :=
  ⟨fun _ _ _ hg hr hb => ⟨_, AsmOp.assemble_color_of_lt hg hr hb, decode_encode _⟩,
    fun _ _ _ => AsmOp.assemble_color_eq_none, AsmOp.assemble_word, assembleProgram_frame⟩

/-! ## END's ignored bits (R60) -/

theorem exec_endFrame_operand (x y : BitVec 24) (s : State) : exec (.endFrame x) s = exec (.endFrame y) s := rfl

theorem consumeAs_endFrame_badCmdQ (x : BitVec 24) (s : State) :
    (consumeAs (effectOf (.endFrame x)) s).badCmdQ = s.badCmdQ := by
  cases hc : s.context with
  | none => rw [consumeAs_none hc]
  | some c => rw [consumeAs_some hc, effectOf_badCmdQ]; simp [Instr.op]

/-- Settles O20: a word with `op` 0b01 is that of END, whose effect does not mention its operand. -/
theorem endIgnoresItsLowBits : Obligations.EndIgnoresItsLowBits := fun x =>
  ⟨decode_encode (.endFrame x), fun s =>
    ⟨exec_endFrame_operand x _ s, _, exec_eq _ s, consumeAs_endFrame_badCmdQ x s⟩⟩

end Sys2Proof.Machine

/-! # The bit timer: one edge of a bit, what holds between bits, and a whole bit (40_bit_timer.md R66 to R74) -/

namespace Sys2Proof.Machine

/-! ## A whole bit (R66, R73, R74) -/

theorem bitWave_false_of_slow {c : Config} (h : c.profile = .slow) :
    bitWave c false = true :: List.replicate c.t0lCyc false := by
  simp [bitWave, Config.highCyc, Config.lowCyc, Config.t0hCyc_of_slow h]

/-- Settles O36: a bit's high phase and low phase follow each other, and its last cycle is that of `bit_emits`. -/
theorem bitWaveform : Obligations.BitWaveform := by
  refine ⟨fun s b hl hf hphase hpin hb hcnt hu => ?_, fun c => bitWave_false_of_slow⟩
  obtain ⟨t, bit, keep, hend⟩ := bit_emits hl ⟨hf, hphase, by rw [hb, hcnt], hpin⟩ hb hu
  refine ⟨bit.trace, t, by rw [run_eq hl, bit.last], hend.fwState, hend.btPhase, hend.btCnt, hend.pinQ, ?_⟩
  exact ⟨keep.bsByte, keep.bsLeft, keep.byteIdx, keep.col, keep.inFrame, keep.abort, keep.badCmdQ⟩

/-! ## One edge inside a frame (R68, R69, R76, R83) -/

/-- A rule that consumes no word does not read the inputs. -/
theorem nextCycle_ruleEffect {r : EdgeRule} (hr : r ≠ .consume) (s : State) :
    nextCycle (ruleEffect r s) = ruleEffect r (nextCycle s) := by
  cases r with
  | consume => exact absurd rfl hr
  | _ => rfl

/-- An edge that neither resets nor consumes: its rule's writes on top of what every edge does. -/
theorem step_of_rule {s : State} {r : EdgeRule} (hl : s.cfg.legal = true) (hr : s.pins.rst = false)
    (hrule : s.edgeRule = r) (hc : r ≠ .consume) : step s = .next (ruleEffect r (edgeBase s)) := by
  rw [step_eq hl, stepState_of_not_rst hr, hrule, nextCycle_ruleEffect hc, edgeBase_eq hr]

/-- Settles O23, by the count: the two rules of the high phase. -/
theorem highPhaseCountsThenFalls : Obligations.HighPhaseCountsThenFalls := by
  intro s hl hr hf hb hn
  have hrule := edgeRule_high hf ((padFails_iff_of_send hf).2 hn) hb
  constructor
  · intro hc
    exact step_of_rule hl hr (hrule.trans (if_pos hc)) (by decide)
  · intro hc
    exact step_of_rule hl hr (hrule.trans (if_neg (by omega))) (by decide)

/-- R83, R75, with the first bit of the red or the blue byte named by its place in `col`. -/
theorem nextByte_edgeBase (s : State) {i : ByteIdx} {v : Byte} {b : Bool} (hi : s.byteIdx.next = i)
    (hv : colByte s.col i = v) (hb : v.getLsbD 7 = b) :
    nextByte (edgeBase s) =
      { edgeBase s with byteIdx := i, bsByte := v, bsLeft := 8, btPhase := .high, pinQ := true,
                        btCnt := s.cfg.highCyc b } := by
  subst hi hv hb
  rfl

/-- Settles O24, by the counts and the byte: the rules of the low phase short of the colour's end. -/
theorem lowPhaseCountsThenStartsTheNextBit : Obligations.LowPhaseCountsThenStartsTheNextBit := by
  intro s hl hr hf hb hn
  have hrule := edgeRule_low hf ((padFails_iff_of_send hf).2 hn) hb
  have byteEnds (hc : s.btCnt < 2) (hleft : s.bsLeft < 2) (hi : s.byteIdx ≠ .blue) :
      step s = .next (nextByte (edgeBase s)) := by
    rw [if_neg (by omega), if_neg (by omega), if_pos hi] at hrule
    exact step_of_rule hl hr hrule (by decide)
  refine ⟨fun hc => ?_, fun hc hleft => ?_, fun hc hleft hi => ?_, fun hc hleft hi => ?_⟩
  · rw [if_pos hc] at hrule
    exact step_of_rule hl hr hrule (by decide)
  · rw [if_neg (by omega), if_pos hleft] at hrule
    exact step_of_rule hl hr hrule (by decide)
  · rw [byteEnds hc hleft (by simp [hi]), nextByte_edgeBase s (i := .red) (by rw [hi]; rfl) rfl
      (BitVec.getLsbD_extractLsb' ..)]
    rfl
  · rw [byteEnds hc hleft (by simp [hi]), nextByte_edgeBase s (i := .blue) (by rw [hi]; rfl) rfl
      (BitVec.getLsbD_extractLsb' ..)]
    rfl

/-! ## Where the bit timer and the serializer hold (R70, R72, R78) -/

/-- Agreement on the registers of the bit timer (R37) and of the serializer (R36). -/
structure KeepsWire (s t : State) : Prop where
  btPhase : t.btPhase = s.btPhase
  btCnt : t.btCnt = s.btCnt
  pinQ : t.pinQ = s.pinQ
  bsByte : t.bsByte = s.bsByte
  bsLeft : t.bsLeft = s.bsLeft

/-- Neither the default clears and acceptance nor the end of the cycle writes one of these registers. -/
theorem KeepsWire.ofRule {s t : State} (h : KeepsWire (openEdge s) t) : KeepsWire s (nextCycle t) :=
  ⟨by simp [h.btPhase], by simp [h.btCnt], by simp [h.pinQ], by simp [h.bsByte], by simp [h.bsLeft]⟩

/-- A COLOR that this state's IDLE edge sends, and does not discard after an abort (R84). -/
def SendsColour (s : State) : Prop :=
  s.fwState = .idle ∧ s.bufValid = true ∧ s.abort = false ∧ ∃ g r b, decode s.bufWord = .color g r b

/-- In IDLE, only a COLOR outside an aborted frame starts a bit (R84 to R87). -/
theorem effectOf_inIdle_keepsWire {i : Instr} {s : State} (h : ∀ g r b, i = .color g r b → s.abort = true) :
    KeepsWire s (effectOf i .inIdle s) := by
  cases i with
  | color g r b =>
    simp only [effectOf, colorEffect, h g r b rfl, if_true]
    exact ⟨rfl, rfl, rfl, rfl, rfl⟩
  | _ => exact ⟨rfl, rfl, rfl, rfl, rfl⟩

theorem stepState_keepsWire_of_idle {s : State} (hr : s.pins.rst = false) (hf : s.fwState = .idle)
    (h : ¬ SendsColour s) : KeepsWire s (stepState s) := by
  rw [stepState_of_not_rst hr, edgeRule_idle hf]
  split
  · next hv =>
    rw [ruleEffect, consumeAs_some ((openEdge_context s).trans (context_idle hr hf))]
    refine (effectOf_inIdle_keepsWire fun g r b hi => ?_).ofRule
    by_contra ha
    exact h ⟨hf, hv, by simpa using ha, g, r, b, by simpa [hv] using hi⟩
  · exact KeepsWire.ofRule ⟨rfl, rfl, rfl, rfl, rfl⟩

theorem stepState_keepsWire_of_latch {s : State} (hr : s.pins.rst = false) (hf : s.fwState = .latch) :
    KeepsWire s (stepState s) := by
  rw [stepState_of_not_rst hr, edgeRule_latch hf]
  split <;> exact KeepsWire.ofRule ⟨rfl, rfl, rfl, rfl, rfl⟩

/-- R72, with the serializer. -/
theorem stepState_keepsWire {s : State} (hr : s.pins.rst = false) (hf : s.fwState ≠ .send) (h : ¬ SendsColour s) :
    KeepsWire s (stepState s) := by
  cases hs : s.fwState with
  | idle => exact stepState_keepsWire_of_idle hr hs h
  | send => exact absurd hs hf
  | latch => exact stepState_keepsWire_of_latch hr hs

/-- Settles O30: a changed register of the bit timer is against `stepState_keepsWire`. -/
theorem bitTimerHoldsOutsideSend : Obligations.BitTimerHoldsOutsideSend := by
  intro s t hstep hr hf hchange
  obtain ⟨-, rfl⟩ := step_next_iff.1 hstep
  by_contra h
  have keep := stepState_keepsWire hr hf h
  simp [keep.btPhase, keep.btCnt, keep.pinQ] at hchange

theorem padAbort_edge {s : State} (hf : s.fwState = .send) (hr : s.pins.rst = false) (hp : s.padFails = true) :
    (stepState s).bsByte = s.bsByte ∧ (stepState s).bsLeft = s.bsLeft := by
  rw [stepState_of_not_rst hr, edgeRule_abort hf hp]
  simp [ruleEffect]

/-- R70, R78: in SEND, an edge that ends no bit leaves the serializer alone. -/
theorem stepState_serializer_of_send {s : State} (hf : s.fwState = .send) (hr : s.pins.rst = false)
    (h : ¬ (s.btPhase = .low ∧ s.btCnt < 2 ∧ s.padFails = false)) :
    (stepState s).bsByte = s.bsByte ∧ (stepState s).bsLeft = s.bsLeft := by
  cases hp : s.padFails with
  | true => exact padAbort_edge hf hr hp
  | false =>
    by_cases hc : 2 ≤ s.btCnt
    · obtain ⟨keep, -⟩ := countPhase_edge hf hr hp hc
      exact ⟨keep.bsByte, keep.bsLeft⟩
    · cases hb : s.btPhase with
      | low => exact absurd ⟨hb, by omega, hp⟩ h
      | high =>
        obtain ⟨keep, -⟩ := endHigh_edge hf hr hp hb (by omega)
        exact ⟨keep.bsByte, keep.bsLeft⟩

/-- Settles O29: in SEND only the end of a bit changes the serializer, elsewhere only a COLOR consumed in IDLE. -/
theorem serializerHoldsDuringABit : Obligations.SerializerHoldsDuringABit := by
  intro s t hstep hr hchange
  obtain ⟨-, rfl⟩ := step_next_iff.1 hstep
  by_cases hf : s.fwState = .send
  · left
    by_contra h
    obtain ⟨hbyte, hleft⟩ := stepState_serializer_of_send hf hr fun ⟨hb, hc, hp⟩ =>
      h ⟨hf, hb, hc, (padFails_iff_of_send hf).1 hp⟩
    simp [hbyte, hleft] at hchange
  · right
    by_contra h
    have keep := stepState_keepsWire hr hf h
    simp [keep.bsByte, keep.bsLeft] at hchange

/-! ## Pad reports (R21, R71): an edge reads the inputs through reset, acceptance and `padFails` -/

/-- The same block with other inputs to come. -/
def withEnv (e : List Inputs) (s : State) : State := { s with env := e }

/-- `effectOf_withPins` with every input to come replaced. -/
theorem effectOf_withEnv (i : Instr) (c : Context) (e : List Inputs) (s : State) :
    effectOf i c (withEnv e s) = withEnv e (effectOf i c s) := by
  cases i with
  | color g r b =>
    cases c with
    | inIdle =>
      simp only [effectOf, colorEffect]
      rw [apply_ite (withEnv e)]
      rfl
    | atColourEnd => rfl
  | endFrame _ => rfl
  | rsvd2 _ => cases c <;> rfl
  | rsvd3 _ => cases c <;> rfl

theorem consumeAs_withEnv (i : Instr) {e : List Inputs} {s : State} (hc : (withEnv e s).context = s.context) :
    consumeAs (effectOf i) (withEnv e s) = withEnv e (consumeAs (effectOf i) s) := by
  cases h : s.context with
  | none => rw [consumeAs_none h, consumeAs_none (hc.trans h)]
  | some c => rw [consumeAs_some h, consumeAs_some (hc.trans h), effectOf_withEnv]

theorem ruleEffect_withEnv (r : EdgeRule) {e : List Inputs} {s : State} (hc : (withEnv e s).context = s.context) :
    ruleEffect r (withEnv e s) = withEnv e (ruleEffect r s) := by
  cases r with
  | consume => exact consumeAs_withEnv _ hc
  | _ => rfl

theorem edgeRule_withEnv {e : List Inputs} {s : State} (hpad : (withEnv e s).padFails = s.padFails) :
    (withEnv e s).edgeRule = s.edgeRule := by
  unfold State.edgeRule
  rw [hpad]
  rfl

section PadReport

variable {e : List Inputs} {s : State} {b : Bool} (hpins : (withEnv e s).pins = { s.pins with pinErr := b })
include hpins

theorem openEdge_withEnv : openEdge (withEnv e s) = withEnv e (openEdge s) := by
  have ha : (withEnv e s).accepts = s.accepts := by
    simp only [State.accepts, State.inReadyO, hpins]
    rfl
  have hd : (withEnv e s).pins.inData = s.pins.inData := by rw [hpins]
  unfold openEdge acceptOffered
  rw [clearResult_accepts, clearResult_accepts, ha, apply_ite (withEnv e), clearResult_pins, hd]
  rfl

variable (hpad : (withEnv e s).padFails = s.padFails)
include hpad

theorem context_withEnv : (withEnv e s).context = s.context := by
  unfold State.context State.colDone State.bsDone State.btFin
  rw [hpad, hpins]
  rfl

/-- Where the report does not count, it changes nothing of an edge. -/
theorem stepState_withEnv : stepState (withEnv e s) = withEnv e.tail (stepState s) := by
  have hrst : (withEnv e s).pins.rst = s.pins.rst := by rw [hpins]
  cases hr : s.pins.rst with
  | true => rw [stepState_of_rst hr, stepState_of_rst (hrst.trans hr)]; rfl
  | false =>
    have hc : (withEnv e (openEdge s)).context = (openEdge s).context := by
      rw [← openEdge_withEnv hpins, openEdge_context, openEdge_context, context_withEnv hpins hpad]
    rw [stepState_of_not_rst hr, stepState_of_not_rst (hrst.trans hr), edgeRule_withEnv hpad,
      openEdge_withEnv hpins, ruleEffect_withEnv _ hc]
    rfl

theorem step_withEnv : step (withEnv e s) = mapNext (withEnv e.tail) (step s) := by
  cases hl : s.cfg.legal with
  | false => rw [step_illegal hl, step_illegal (s := withEnv e s) hl]; rfl
  | true => rw [step_eq hl, step_eq (s := withEnv e s) hl, stepState_withEnv hpins hpad]; rfl

end PadReport

/-- R71: outside SEND and under IGNORE the report is not read. -/
theorem padFails_of_unread {s : State} (h : s.fwState ≠ .send ∨ s.cfg.onPinError = .ignore) : s.padFails = false := by
  rcases h with h | h <;> simp [State.padFails, h]

theorem padFails_withEnv {s : State} (e : List Inputs) (h : s.fwState ≠ .send ∨ s.cfg.onPinError = .ignore) :
    (withEnv e s).padFails = s.padFails :=
  (padFails_of_unread (s := withEnv e s) h).trans (padFails_of_unread h).symm

theorem step_withPins_pinErr {s : State} (b : Bool) (h : s.fwState ≠ .send ∨ s.cfg.onPinError = .ignore) :
    step (withPins { s.pins with pinErr := b } s) = mapNext (withEnv s.env.tail) (step s) :=
  step_withEnv (e := { s.pins with pinErr := b } :: s.env.tail) rfl (padFails_withEnv _ h)

theorem forgetPinErr_pins (s : State) : (forgetPinErr s).pins = { s.pins with pinErr := false } := by
  unfold State.pins forgetPinErr
  cases s.env <;> rfl

theorem step_forgetPinErr {s : State} (h : s.cfg.onPinError = .ignore) :
    step (forgetPinErr s) = mapNext forgetPinErr (step s) := by
  refine (step_withEnv (forgetPinErr_pins s) (padFails_withEnv _ (.inr h))).trans ?_
  cases hl : s.cfg.legal with
  | false => rw [step_illegal hl]; rfl
  | true => rw [step_eq hl, mapNext, mapNext, forgetPinErr, stepState_env, List.map_tail]; rfl

/-- Under IGNORE the line never shows a pad report. -/
theorem lineTrace_forgetPinErr (n : Nat) :
    ∀ {s : State}, s.cfg.onPinError = .ignore → lineTrace n (forgetPinErr s) = lineTrace n s := by
  induction n with
  | zero => intros; rfl
  | succ n ih =>
    intro s h
    rw [lineTrace, lineTrace, step_forgetPinErr h]
    cases hs : step s with
    | next t => exact congrArg _ (ih (by rw [step_cfg hs, h]))
    | fault r => rfl
    | refused r => rfl

/-- Nor does any register. -/
theorem run_forgetPinErr (n : Nat) :
    ∀ {s : State}, s.cfg.onPinError = .ignore → run n (forgetPinErr s) = mapNext forgetPinErr (run n s) := by
  induction n with
  | zero => intros; rfl
  | succ n ih =>
    intro s h
    rw [run, run, step_forgetPinErr h]
    cases hs : step s with
    | next t => exact ih (by rw [step_cfg hs, h])
    | fault r => rfl
    | refused r => rfl

/-- Settles O28: an edge that does not read the report commutes with changing it; then by induction on the run. -/
theorem padReportsAreReadOnlyInSendUnderAbort : Obligations.PadReportsAreReadOnlyInSendUnderAbort :=
  ⟨fun s b h => (step_withPins_pinErr b h).trans (step_withPins_pinErr s.pins.pinErr h).symm,
    fun n _ h => ⟨lineTrace_forgetPinErr n h, run_forgetPinErr n h⟩⟩

end Sys2Proof.Machine

/-! # The serializer: a byte on the line and its length in cycles (41_bit_serializer.md R79, R80) -/

namespace Sys2Proof.Machine

/-! ## A byte from the serializer's registers (R79) -/

/-- Settles O37: with eight bits left the byte is what `byte_emits` sends, by its induction over the bits. -/
theorem byteWaveform : Obligations.ByteWaveform := by
  intro s v hl hf hphase hpin hv hleft hcnt hu
  obtain ⟨t, byte, keep, hend, hshifted, hone⟩ := byte_emits hl ⟨hf, hphase, by rw [hv, hcnt], hpin⟩ hv hleft hu
  refine ⟨byte.trace, t, by rw [run_eq hl, byte.last], hend.fwState, hend.btPhase, hend.btCnt, hend.pinQ, hshifted,
    hone, ?_⟩
  exact ⟨keep.byteIdx, keep.col, keep.inFrame, keep.abort, keep.badCmdQ⟩

/-! ## The length of a byte (R80) -/

theorem bitCycles_false (c : Config) : bitCycles c false = c.t0hCyc + c.t0lCyc := rfl

theorem bitCycles_true (c : Config) : bitCycles c true = c.t1hCyc + c.t1lCyc := rfl

theorem msbFirst_length {w : Nat} (v : BitVec w) : (msbFirst v).length = w := by simp [msbFirst]

theorem popCount_le (v : Byte) : popCount v ≤ 8 := List.countP_le_length.trans_eq (msbFirst_length v)

/-- The bits of a list last as long as its zeros and its ones together. -/
theorem sum_map_bitCycles (c : Config) (bits : List Bool) : (bits.map (bitCycles c)).sum =
    (bits.length - bits.countP id) * bitCycles c false + bits.countP id * bitCycles c true := by
  induction bits with
  | nil => simp
  | cons b bits ih =>
    have hle : bits.countP id ≤ bits.length := List.countP_le_length
    cases b with
    | false =>
      have zeros : bits.length + 1 - bits.countP id = bits.length - bits.countP id + 1 := by omega
      simp [ih, zeros, Nat.add_mul]
      omega
    | true =>
      simp [ih, Nat.add_mul]
      omega

theorem waveCycles_eq (c : Config) (v : Byte) : waveCycles c v =
    (8 - popCount v) * (c.t0hCyc + c.t0lCyc) + popCount v * (c.t1hCyc + c.t1lCyc) := by
  rw [waveCycles, sum_map_bitCycles, msbFirst_length, bitCycles_false, bitCycles_true, popCount]

/-- In REF10 a bit 0 takes 11 cycles and a bit 1 takes 12. -/
theorem waveCycles_ref10 (v : Byte) : waveCycles Config.ref10 v = 88 + popCount v := by
  have hle := popCount_le v
  have zero : Config.ref10.t0hCyc + Config.ref10.t0lCyc = 11 := by decide
  have one : Config.ref10.t1hCyc + Config.ref10.t1lCyc = 12 := by decide
  rw [waveCycles_eq, zero, one]
  omega

/-- In REF10S a bit 0 takes 9 cycles and a bit 1 takes 12. -/
theorem waveCycles_ref10S (v : Byte) : waveCycles Config.ref10S v = 72 + 3 * popCount v := by
  have hle := popCount_le v
  have zero : Config.ref10S.t0hCyc + Config.ref10S.t0lCyc = 9 := by decide
  have one : Config.ref10S.t1hCyc + Config.ref10S.t1lCyc = 12 := by decide
  rw [waveCycles_eq, zero, one]
  omega

theorem popCount_zero : popCount 0x00#8 = 0 := by decide

theorem popCount_allOnes : popCount 0xFF#8 = 8 := by decide

/-- Settles O38: each bit's length is that of its value, so a byte's is counted by its zeros and its ones. -/
theorem byteLengthInCycles : Obligations.ByteLengthInCycles := by
  refine ⟨waveCycles_eq, fun v => ⟨waveCycles_ref10 v, waveCycles_ref10S v⟩, ?_, ?_, ?_, ?_⟩
  · rw [waveCycles_ref10, popCount_zero]
  · rw [waveCycles_ref10, popCount_allOnes]
  · rw [waveCycles_ref10S, popCount_zero]
  · rw [waveCycles_ref10S, popCount_allOnes]

end Sys2Proof.Machine

/-! # The frame writer: its commands, its edges, and a frame on the line (42_frame_writer.md R81 to R96) -/

namespace Sys2Proof.Machine

/-! ## The commands at the edge that consumes them (R84 to R87) -/

theorem exec_of_context {s : State} {c : Context} (i : Instr) (h : s.context = some c) :
    exec i s = .next (effectOf i c s) := by
  rw [exec_eq, consumeAs_some h]

theorem exec_of_inIdle {s : State} (i : Instr) (h : InIdle s) : exec i s = .next (effectOf i .inIdle s) :=
  exec_of_context i (inIdle_iff.1 h)

theorem exec_of_atColourEnd {s : State} (i : Instr) (h : AtColourEnd s) :
    exec i s = .next (effectOf i .atColourEnd s) :=
  exec_of_context i (atColourEnd_iff.1 h)

theorem exec_of_not_consumable {s : State} (i : Instr) (h : ¬ (InIdle s ∨ AtColourEnd s)) : exec i s = .next s := by
  rw [exec_eq, consumeAs_none (not_consumable_iff.1 h)]

theorem colorEffect_inIdle {s : State} (g r b : Byte) (h : s.abort = false) :
    colorEffect g r b .inIdle s = { loadColour g r b (takeWord s) with inFrame := true, fwState := .send } := by
  simp [colorEffect, h]

theorem colorEffect_inIdle_of_abort {s : State} (g r b : Byte) (h : s.abort = true) :
    colorEffect g r b .inIdle s = takeWord s := by
  simp [colorEffect, h]

/-- Settles O18, by the context: `abort` decides in IDLE, and a colour's end goes on in the open frame. -/
theorem colorStartsItsFirstBitOrIsDiscarded : Obligations.ColorStartsItsFirstBitOrIsDiscarded := by
  refine ⟨fun g r b s hc ha => ?_, fun g r b s hc ha => ?_, fun g r b s hc => ?_⟩
  · rw [exec_of_inIdle _ hc, effectOf, colorEffect_inIdle g r b ha]
    rfl
  · rw [exec_of_inIdle _ hc, effectOf, colorEffect_inIdle_of_abort g r b ha]
    rfl
  · rw [exec_of_atColourEnd _ hc]
    rfl

/-- Settles O19: the effect of END is the same in both contexts. -/
theorem endStartsTheLatchPeriod : Obligations.EndStartsTheLatchPeriod := by
  rintro x s (hc | hc)
  · exact exec_of_inIdle _ hc
  · exact exec_of_atColourEnd _ hc

/-- Settles O21: both words have the effect `rejectWord`, which stalls the frame at a colour's end only. -/
theorem reservedWordsAreDiscardedAndRecorded : Obligations.ReservedWordsAreDiscardedAndRecorded :=
  ⟨fun _ _ hc => ⟨exec_of_inIdle _ hc, exec_of_inIdle _ hc⟩,
    fun _ _ hc => ⟨exec_of_atColourEnd _ hc, exec_of_atColourEnd _ hc⟩⟩

/-- A command that is not COLOR leaves the colour and the wire's registers alone. -/
theorem effectOf_wire_of_ne_color {i : Instr} (h : ∀ g r b, i ≠ .color g r b) (c : Context) (s : State) :
    (effectOf i c s).col = s.col ∧ (effectOf i c s).byteIdx = s.byteIdx ∧ KeepsWire s (effectOf i c s) := by
  cases i with
  | color g r b => exact absurd rfl (h g r b)
  | endFrame _ => exact ⟨rfl, rfl, rfl, rfl, rfl, rfl, rfl⟩
  | rsvd2 _ | rsvd3 _ => cases c <;> exact ⟨rfl, rfl, rfl, rfl, rfl, rfl, rfl⟩

theorem effectOf_latCnt_of_ne_endFrame {i : Instr} (h : ∀ x, i ≠ .endFrame x) (c : Context) (s : State) :
    (effectOf i c s).latCnt = s.latCnt := by
  cases i with
  | color g r b =>
    cases c with
    | inIdle => simp only [effectOf, colorEffect]; split <;> rfl
    | atColourEnd => rfl
  | endFrame x => exact absurd rfl (h x)
  | rsvd2 _ | rsvd3 _ => cases c <;> rfl

theorem op_getLsbD_one_of_ne_rsvd {i : Instr} (h2 : ∀ x, i ≠ .rsvd2 x) (h3 : ∀ x, i ≠ .rsvd3 x) :
    i.op.getLsbD 1 = false := by
  cases i with
  | color _ _ _ | endFrame _ => simp [Instr.op]
  | rsvd2 x => exact absurd rfl (h2 x)
  | rsvd3 x => exact absurd rfl (h3 x)

theorem rejectWord_inFrame (c : Context) (s : State) : (rejectWord c s).inFrame = s.inFrame := by
  cases c <;> rfl

/-- Settles O22: where no word is consumed nothing changes, elsewhere each group of registers has its one writer. -/
theorem commandsLeaveTheRestUnchanged : Obligations.CommandsLeaveTheRestUnchanged := by
  intro i s t h
  cases hc : s.context with
  | none =>
    rw [exec_of_not_consumable i (not_consumable_iff.2 hc)] at h
    cases h
    simp
  | some c =>
    rw [exec_of_context i hc] at h
    cases h
    refine ⟨effectOf_frame i c s, fun hi => ?_, fun hi => effectOf_latCnt_of_ne_endFrame hi c s, fun h2 h3 => ?_,
      fun x hi => ?_⟩
    · obtain ⟨hcol, hidx, keep⟩ := effectOf_wire_of_ne_color hi c s
      exact ⟨hcol, hidx, keep.bsByte, keep.bsLeft, keep.btPhase, keep.btCnt, keep.pinQ⟩
    · rw [effectOf_badCmdQ, op_getLsbD_one_of_ne_rsvd h2 h3, Bool.or_false]
    · rcases hi with rfl | rfl <;> exact rejectWord_inFrame c s

/-! ## The buffer at an edge (R81, R82) -/

/-- Settles O14: an accepting edge is no reset edge, so what it leaves in the buffer is `stepState_bufValid`'s and
`stepState_bufWord`'s. -/
theorem acceptanceFillsTheEmptyBuffer : Obligations.AcceptanceFillsTheEmptyBuffer := by
  refine ⟨accepts_iff, fun s t hstep ha => ?_, fun s ha => ?_, fun _ _ => rfl⟩
  · obtain ⟨-, rfl⟩ := step_next_iff.1 hstep
    obtain ⟨-, -, hr⟩ := (accepts_iff s).1 ha
    exact ⟨by simp [stepState_bufValid hr, ha], by simp [stepState_bufWord hr, ha]⟩
  · obtain ⟨-, hempty, -⟩ := (accepts_iff s).1 ha
    simp [State.consumesNow, hempty]

/-- Settles O15: a full buffer is emptied exactly if the edge has a context. -/
theorem bufferedWordWaitsUntilConsumed : Obligations.BufferedWordWaitsUntilConsumed := by
  refine ⟨fun s t hstep hr hv => ?_, fun i s => exec_of_not_consumable i⟩
  obtain ⟨-, rfl⟩ := step_next_iff.1 hstep
  rw [not_consumable_iff, consumable_iff, stepState_bufValid hr, stepState_bufWord hr, accepts_of_bufValid hv]
  exact ⟨fun hc => by simp [hc], fun hc => by simp [hc, hv]⟩

/-! ## One edge of the frame writer (R82, R88 to R90, R92) -/

/-- With a word buffered nothing is accepted, so the edge is the command's effect after the default clears (R91). -/
theorem stepState_of_context {s : State} {c : Context} (hv : s.bufValid = true) (hc : s.context = some c) :
    stepState s = nextCycle (effectOf (decode s.bufWord) c (clearResult s)) := by
  have hr : s.pins.rst = false := by
    by_contra hr
    simp [context_of_rst (by simpa using hr)] at hc
  have hrule : s.edgeRule = .consume := (edgeRule_eq_consume hr).2 ⟨hv, by simp [hc]⟩
  rw [stepState_of_not_rst hr, hrule, openEdge_of_bufValid hv, ruleEffect,
    consumeAs_some ((clearResult_context s).trans hc)]
  rfl

/-- Settles O8: the word in the buffer decodes to the command, and no command writes the inputs. -/
theorem stepRunsTheBufferedCommand : Obligations.StepRunsTheBufferedCommand := by
  intro s i hl hv hw _ hc
  obtain ⟨c, hc⟩ := Option.isSome_iff_exists.1 (consumable_iff.1 hc)
  have hi : decode s.bufWord = i := by rw [hw, decode_encode]
  have henv : (effectOf i c (clearResult s)).env = s.env := (effectOf_frame i c (clearResult s)).2.1
  have hexec : exec i { s with doneQ := false, ferrQ := false } = .next (effectOf i c (clearResult s)) :=
    exec_of_context i ((clearResult_context s).trans hc)
  rw [step_eq hl, stepState_of_context hv hc, hi, nextCycle, henv, hexec]
  rfl

/-- Settles O9: the step of a legal block is a total function, which keeps the configuration. -/
theorem nothingStopsTheBlock : Obligations.NothingStopsTheBlock := fun n s hl =>
  ⟨stepStates n s, run_eq hl n, stepStates_cfg n s, stepStates_env n s⟩

theorem edgeRule_atColourEnd {s : State} (h : AtColourEnd s) :
    s.edgeRule = if s.bufValid then .consume else .stall := by
  obtain ⟨-, hf, hn, hb, hc, hleft, hi⟩ := h
  rw [edgeRule_low hf ((padFails_iff_of_send hf).2 hn) hb, if_neg (by omega), if_neg (by omega), if_neg (by simp [hi])]

/-- Settles O25: with an empty buffer the rule of the edge is to stall at a colour's end and to wait in IDLE. -/
theorem stallAndIdleWaitForAWord : Obligations.StallAndIdleWaitForAWord := by
  constructor
  · intro s hl hc hv
    exact step_of_rule (r := .stall) hl hc.1 (by simp [edgeRule_atColourEnd hc, hv]) (by decide)
  · rintro s hl ⟨hr, hf⟩ hv
    exact step_of_rule (r := .wait) hl hr (by simp [edgeRule_idle hf, hv]) (by decide)

/-- Settles O26, by the count: the two rules of LATCH. -/
theorem latchCountsThenReports : Obligations.LatchCountsThenReports := by
  intro s hl hr hf
  have hrule := edgeRule_latch hf
  constructor
  · intro hc
    exact step_of_rule hl hr (hrule.trans (if_pos hc)) (by decide)
  · intro hc
    exact step_of_rule hl hr (hrule.trans (if_neg (by omega))) (by decide)

/-- Settles O27: a report that counts in SEND decides the rule of the edge before anything else does. -/
theorem padFailureAbortsTheFrame : Obligations.PadFailureAbortsTheFrame := by
  intro s hl hr hf hpolicy herr
  exact step_of_rule hl hr (edgeRule_abort hf (by simp [State.padFails, hpolicy, hf, herr])) (by decide)

/-! ## Between frames (R96) -/

/-- An idle block with a low line agrees on every live register with a reset block that has the same word buffered. -/
theorem liveEq_resetWith {s : State} (hf : s.fwState = .idle) (hframe : s.inFrame = false) (habort : s.abort = false)
    (hline : s.pinQ = false) :
    LiveEq s { State.resetWith s.cfg s.env with bufValid := s.bufValid, bufWord := s.bufWord } where
  cfg := rfl
  env := rfl
  fwState := hf
  inFrame := hframe
  abort := habort
  pinQ := hline
  bufValid := rfl
  bufWord _ := rfl
  sending h := by simp [hf] at h
  latching h := by simp [hf] at h

/-- Settles O44: the invariant leaves the block idle where a frame is reported, and the line reads live registers
only. -/
theorem noStateLeaksBetweenFrames : Obligations.NoStateLeaksBetweenFrames := by
  intro s h hdone
  obtain ⟨hf, hframe, habort⟩ := h.doneIdle hdone
  have hline : s.pinQ = false := h.lineLow (.inl (by simp [hf]))
  exact ⟨⟨hf, hframe, habort, hline⟩, (liveEq_resetWith hf hframe habort hline).lineTrace⟩

/-! ## Runs by their last edge -/

theorem stepStates_succ' (n : Nat) (s : State) : stepStates (n + 1) s = stepState (stepStates n s) :=
  stepStates_add n 1 s

theorem lineTrace_succ' {s : State} (hl : s.cfg.legal = true) (n : Nat) :
    lineTrace (n + 1) s = lineTrace n s ++ [(stepStates n s).pinQ] := by
  rw [lineTrace_add hl, lineTrace_succ (by simpa using hl), lineTrace_zero]

theorem lineTrace_eq_replicate {n : Nat} {s : State} {b : Bool} (hl : s.cfg.legal = true)
    (h : ∀ k < n, (stepStates k s).pinQ = b) : lineTrace n s = List.replicate n b := by
  induction n with
  | zero => rfl
  | succ n ih =>
    rw [lineTrace_succ' hl, ih fun k hk => h k (by omega), h n (by omega), List.replicate_succ']

theorem stepStates_pins (n : Nat) (s : State) : (stepStates n s).pins = s.env[n]?.getD Inputs.quiet := by
  rw [State.pins, stepStates_env, List.headD_eq_head?_getD, List.head?_drop]

theorem NoReset.mono {m n : Nat} {s : State} (h : NoReset n s) (hm : m ≤ n) : NoReset m s :=
  fun p hp => h p (List.take_subset_take_left _ hm hp)

theorem NoReset.rst_stepStates {k n : Nat} {s : State} (h : NoReset n s) (hk : k < n) :
    (stepStates k s).pins.rst = false := by
  rw [stepStates_pins]
  cases he : s.env[k]? with
  | none => rfl
  | some p => exact h p (List.mem_of_getElem? ((List.getElem?_take_of_lt hk).trans he))

/-! ## A latch period (R89, R90) -/

/-- `t` is `k` cycles further on in the latch period of `s`. -/
structure LatchAfter (k : Nat) (s t : State) : Prop where
  fwState : t.fwState = .latch
  latCnt : t.latCnt = s.latCnt - k
  pinQ : t.pinQ = s.pinQ
  abort : t.abort = s.abort
  inFrame : t.inFrame = s.inFrame
  doneQ : 0 < k → t.doneQ = false

/-- Short of its last edge, a latch period only counts (R89). -/
theorem latch_run {s : State} (hf : s.fwState = .latch) (hnr : NoReset (s.latCnt - 1) s) (k : Nat)
    (hk : k ≤ s.latCnt - 1) : LatchAfter k s (stepStates k s) := by
  induction k with
  | zero => exact ⟨hf, rfl, rfl, rfl, rfl, fun h => absurd h (by decide)⟩
  | succ k ih =>
    have prev := ih (by omega)
    have hcnt := prev.latCnt
    rw [stepStates_succ']
    obtain ⟨hf', hcnt', hpin, habort, hframe, hdone⟩ :=
      countLatch_edge prev.fwState (hnr.rst_stepStates hk) (by omega)
    exact ⟨hf', by omega, hpin.trans prev.pinQ, habort.trans prev.abort, hframe.trans prev.inFrame, fun _ => hdone⟩

/-- Settles O40: the period counts down to its last edge, which reports the frame and leaves the line alone. -/
theorem latchPeriodEndsInDone : Obligations.LatchPeriodEndsInDone := by
  rintro n s hl hf rfl hpos hline hnr
  have within (k : Nat) (hk : k < s.latCnt) : LatchAfter k s (stepStates k s) :=
    latch_run hf (hnr.mono (Nat.sub_le _ _)) k (by omega)
  have last := within (s.latCnt - 1) (by omega)
  have hcnt := last.latCnt
  obtain ⟨hidle, hdone, hferr, hpin, habort, hframe⟩ :=
    endLatch_edge last.fwState (hnr.rst_stepStates (by omega)) (by omega)
  rw [← stepStates_pred s hpos] at hidle hdone hferr hpin habort hframe
  refine ⟨lineTrace_eq_replicate hl fun k hk => ?_, fun k hpos' hk => ?_, ?_⟩
  · rcases Nat.lt_succ_iff_lt_or_eq.1 hk with hk | rfl
    · exact (within k hk).pinQ.trans hline
    · exact hpin.trans (last.pinQ.trans hline)
  · exact ⟨_, run_eq hl k, (within k hk).fwState, (within k hk).doneQ hpos'⟩
  · exact ⟨_, run_eq hl _, hidle, hdone, hferr.trans last.abort, habort, hframe.trans last.inFrame⟩

/-! ## A stalled frame (R88, R116) -/

/-- The frame waits in IDLE for its next word (R88). -/
structure Stalled (s : State) : Prop where
  fwState : s.fwState = .idle
  inFrame : s.inFrame = true
  abort : s.abort = false
  bufValid : s.bufValid = false
  pinQ : s.pinQ = false

/-- IDLE with an empty buffer holds every register that the default clears and acceptance do not write (R109). -/
theorem stepState_of_idle_empty {s : State} (hr : s.pins.rst = false) (hf : s.fwState = .idle)
    (hv : s.bufValid = false) : stepState s = edgeBase s := by
  rw [stepState_of_not_rst hr, edgeRule_idle hf, hv, ← edgeBase_eq hr]
  rfl

/-- Without an offer the frame stays stalled. -/
theorem Stalled.wait {s : State} (h : Stalled s) (hr : s.pins.rst = false) (hv : s.pins.inValid = false) :
    Stalled (stepState s) := by
  rw [stepState_of_idle_empty hr h.fwState h.bufValid]
  exact ⟨h.fwState, h.inFrame, h.abort, by simp [h.bufValid, hv], h.pinQ⟩

theorem Stalled.waits {s : State} (h : Stalled s) {n : Nat}
    (hp : ∀ k < n, (stepStates k s).pins.rst = false ∧ (stepStates k s).pins.inValid = false) :
    Stalled (stepStates n s) := by
  induction n with
  | zero => exact h
  | succ n ih =>
    obtain ⟨hr, hv⟩ := hp n n.lt_succ_self
    rw [stepStates_succ']
    exact (ih fun k hk => hp k (by omega)).wait hr hv

/-- A COLOR consumed in IDLE outside an abort opens or goes on with the frame (R84). -/
theorem inFrame_of_color {s : State} {g r b : Byte} (hv : s.bufValid = true) (hw : s.bufWord = encode (.color g r b))
    (hc : InIdle s) (ha : s.abort = false) : (stepState s).inFrame = true := by
  rw [stepState_of_context hv (inIdle_iff.1 hc), hw, decode_encode, effectOf,
    colorEffect_inIdle (s := clearResult s) g r b ha]
  rfl

/-- The two edges that bring a stalled frame its next COLOR: one accepts it, one consumes it (R116). -/
theorem Stalled.resume {s : State} (h : Stalled s) {g r b : Byte} (hr : s.pins.rst = false)
    (hv : s.pins.inValid = true) (hd : s.pins.inData = encode (.color g r b)) (hr' : (stepState s).pins.rst = false) :
    (stepState s).pinQ = false ∧ ByteStart (g ++ r ++ b) .green (stepStates 2 s) ∧
      (stepStates 2 s).inFrame = true := by
  have accepted : stepState s = edgeBase s := stepState_of_idle_empty hr h.fwState h.bufValid
  have hidle : InIdle (stepState s) := ⟨hr', by rw [accepted]; exact h.fwState⟩
  have habort : (stepState s).abort = false := by rw [accepted]; exact h.abort
  have hfull : (stepState s).bufValid = true := by rw [accepted]; simp [hv]
  have hword : (stepState s).bufWord = encode (.color g r b) := by rw [accepted]; simp [hv, h.bufValid, hd]
  exact ⟨by rw [accepted]; exact h.pinQ, byteStart_of_color hfull hword (.inl ⟨hidle, habort⟩),
    inFrame_of_color hfull hword hidle habort⟩

/-- Settles O41: the frame stays stalled over the cycles without an offer, and two edges later green is on the line. -/
theorem stalledFrameResumesWithTheNextColor : Obligations.StalledFrameResumesWithTheNextColor := by
  intro s g r b before offer next later hl hf hframe habort hv hpin henv hbefore hro hvo hdo hrn
  have waits (n : Nat) (hn : n ≤ before.length) : Stalled (stepStates n s) := by
    refine Stalled.waits ⟨hf, hframe, habort, hv, hpin⟩ fun k hk => ?_
    have hk : k < before.length := by omega
    rw [stepStates_pins, henv, List.getElem?_append_left hk, List.getElem?_eq_getElem hk]
    exact hbefore _ (List.getElem_mem hk)
  have offered : (stepStates before.length s).pins = offer := by rw [stepStates_pins, henv]; simp
  have after : (stepState (stepStates before.length s)).pins = next := by
    rw [← stepStates_succ', stepStates_pins, henv]
    simp
  obtain ⟨hlow, hstart, hopen⟩ := (waits before.length le_rfl).resume (by rw [offered, hro]) (by rw [offered, hvo])
    (by rw [offered, hdo]) (by rw [after, hrn])
  rw [← stepStates_add] at hstart hopen
  refine ⟨lineTrace_eq_replicate hl fun k hk => ?_, _, run_eq hl _, hstart.fwState, hopen, hstart.pinQ, ?_,
    hstart.bsLeft, hstart.byteIdx, hstart.col, hstart.btPhase, ?_⟩
  · rcases Nat.lt_succ_iff_lt_or_eq.1 hk with hk | rfl
    · exact (waits k (by omega)).pinQ
    · rw [stepStates_succ', hlow]
  · rw [hstart.bsByte, (colByte_append g r b).1]
  · rw [hstart.btCnt, hstart.bsByte, (colByte_append g r b).1, stepStates_cfg]

/-! ## The block without its upstream

Between two consumptions the buffer and the inputs do not reach the other registers, so the bench's block can be
compared with one that has no word buffered and none to come. Once that block is idle it stays so: if it is not idle
now, it has met no edge that consumes and none that reports a frame. -/

/-- The registers of the block, its buffer empty and no inputs to come. -/
def alone (s : State) : State := { s with env := [], bufValid := false, bufWord := 0#26 }

theorem alone_pins (s : State) : (alone s).pins = Inputs.quiet := rfl

theorem alone_padFails (s : State) : (alone s).padFails = false := by simp [State.padFails, alone_pins, Inputs.quiet]

theorem alone_undisturbed (n : Nat) (s : State) : Undisturbed n (alone s) := by simp [Undisturbed, alone]

theorem alone_noReset (n : Nat) (s : State) : NoReset n (alone s) := (alone_undisturbed n s).noReset

section NoReport

variable {s : State} (hr : s.pins.rst = false) (hp : s.padFails = false)
include hr hp

theorem alone_context : (alone s).context = s.context := by
  unfold State.context State.colDone State.bsDone State.btFin
  rw [alone_padFails, alone_pins, hr, hp]
  rfl

/-- Only where a word could be consumed does the rule of an edge read the buffer. -/
theorem alone_edgeRule (hc : s.context = none) : (alone s).edgeRule = s.edgeRule := by
  cases hf : s.fwState with
  | idle => simp [context_idle hr hf] at hc
  | latch => simp only [State.edgeRule, alone, hf]
  | send =>
    cases hb : s.btPhase with
    | high => rw [edgeRule_high hf hp hb, edgeRule_high (s := alone s) hf (alone_padFails s) hb]; rfl
    | low =>
      have notEnd : ¬ (s.btCnt < 2 ∧ s.bsLeft < 2 ∧ s.byteIdx = .blue) := fun ⟨h1, h2, h3⟩ => by
        rw [context_eq_atColourEnd.2 ⟨hr, hf, hp, hb, h1, h2, h3⟩] at hc
        cases hc
      rw [edgeRule_low hf hp hb, edgeRule_low (s := alone s) hf (alone_padFails s) hb]
      exact ite_congr rfl (fun _ => rfl) fun h1 => ite_congr rfl (fun _ => rfl) fun h2 =>
        ite_congr rfl (fun _ => rfl) fun h3 => absurd ⟨by omega, by omega, not_not.1 h3⟩ notEnd

/-- An edge that consumes nothing is the same edge without the upstream. -/
theorem alone_stepState (hc : s.context = none) : alone (stepState s) = stepState (alone s) := by
  have hne : s.edgeRule ≠ .consume := by simp [edgeRule_eq_consume hr, hc]
  rw [stepState_of_not_rst hr, stepState_of_not_rst (s := alone s) rfl, alone_edgeRule hr hp hc,
    nextCycle_ruleEffect hne, nextCycle_ruleEffect hne, edgeBase_eq hr, edgeBase_eq (s := alone s) rfl]
  cases h : s.edgeRule with
  | consume => exact absurd h hne
  | _ => rfl

end NoReport

/-! ## Without an upstream, IDLE is for ever -/

/-- A rule that does not lead to IDLE and consumes no word leaves `abort` and the result alone. -/
theorem ruleEffect_of_busy {r : EdgeRule} {s : State} (hc : r ≠ .consume) (hf : (ruleEffect r s).fwState ≠ .idle) :
    (ruleEffect r s).abort = s.abort ∧ (ruleEffect r s).doneQ = s.doneQ := by
  cases r with
  | consume => exact absurd rfl hc
  | padAbort | endLatch => exact absurd rfl hf
  | _ => exact ⟨rfl, rfl⟩

section Alone

variable (s : State)

/-- With nothing offered, the buffer stays empty. -/
theorem alone_stepState_alone : alone (stepState (alone s)) = stepState (alone s) := by
  have hv : (stepState (alone s)).bufValid = false := (stepState_bufValid (s := alone s) rfl).trans rfl
  have hw : (stepState (alone s)).bufWord = 0#26 := (stepState_bufWord (s := alone s) rfl).trans rfl
  have he : (stepState (alone s)).env = [] := stepState_env (alone s)
  rw [alone, ← he, ← hv, ← hw]

theorem stepState_alone_of_idle (hf : s.fwState = .idle) : (stepState (alone s)).fwState = .idle := by
  rw [stepState_of_idle_empty (s := alone s) rfl hf rfl]
  exact hf

theorem stepStates_alone_of_idle (n : Nat) (hf : s.fwState = .idle) : (stepStates n (alone s)).fwState = .idle := by
  induction n generalizing s with
  | zero => exact hf
  | succ n ih => rw [stepStates, ← alone_stepState_alone]; exact ih _ (stepState_alone_of_idle s hf)

variable {s}

/-- Where a word could be consumed, the block without an upstream goes to IDLE or stays there (R88, R109). -/
theorem alone_context_of_busy (h : (stepState (alone s)).fwState ≠ .idle) : (alone s).context = none := by
  by_contra hc
  rcases consumable_iff.2 (Option.isSome_iff_ne_none.2 hc) with ⟨-, hf⟩ | hend
  · exact h (stepState_alone_of_idle s hf)
  · refine h ?_
    rw [stepState_of_not_rst hend.1, edgeRule_atColourEnd hend]
    rfl

theorem stepState_alone_of_busy (h : (stepState (alone s)).fwState ≠ .idle) :
    (stepState (alone s)).abort = s.abort ∧ (stepState (alone s)).doneQ = false := by
  have hc := alone_context_of_busy h
  have hrule : (alone s).edgeRule ≠ .consume := by simp [edgeRule_eq_consume (s := alone s) rfl, hc]
  rw [stepState_of_not_rst (s := alone s) rfl] at h ⊢
  obtain ⟨habort, hdone⟩ := ruleEffect_of_busy hrule h
  exact ⟨habort.trans (openEdge_abort _), hdone.trans (openEdge_doneQ _)⟩

end Alone

/-! ## The bench of a frame (R63, R64, R94) -/

/-- The words of a frame, END last (R64). -/
def frameWords (cs : List (Byte × Byte × Byte)) : List CmdWord :=
  cs.map (fun p => encode (.color p.1 p.2.1 p.2.2)) ++ [encode (.endFrame 0#24)]

/-- The bench in cycle `k` with the words `ws` still to be accepted, each offered as soon as it is in front; no reset
and no pad failure. -/
def upstream (s : State) (k : Nat) (ws : List CmdWord) : Bench :=
  { block := s, cycle := k, offers := ws.map (Offer.mk 0), pinErrCycles := [], rstCycles := [] }

theorem frameOffers_eq (cs : List (Byte × Byte × Byte)) : frameOffers cs = (frameWords cs).map (Offer.mk 0) := by
  simp [frameOffers, frameWords]

/-- The inputs of a cycle whose front word is that of `ws`. -/
def offerOf : List CmdWord → Inputs
  | [] => Inputs.quiet
  | w :: _ => { rst := false, inValid := true, inData := w, pinErr := false }

/-- The block with the front word on its ports. -/
def offered (ws : List CmdWord) (s : State) : State := withEnv [offerOf ws] s

theorem driven_upstream (s : State) (k : Nat) (ws : List CmdWord) : (upstream s k ws).driven = offered ws s := by
  cases ws with
  | nil => rfl
  | cons w ws => simp [Bench.driven, Bench.inputs, upstream, offered, offerOf, withEnv]

theorem offered_rst (ws : List CmdWord) (s : State) : (offered ws s).pins.rst = false := by cases ws <;> rfl

theorem offered_padFails (ws : List CmdWord) (s : State) : (offered ws s).padFails = false := by
  cases ws <;> simp [State.padFails, offered, withEnv, offerOf, State.pins, Inputs.quiet]

theorem offered_context (ws : List CmdWord) (s : State) : (offered ws s).context = (alone s).context :=
  (alone_context (offered_rst ws s) (offered_padFails ws s)).symm

theorem accepts_offered_cons (w : CmdWord) (ws : List CmdWord) (s : State) :
    (offered (w :: ws) s).accepts = !s.bufValid := by
  simp [State.accepts, State.inReadyO, offered, withEnv, offerOf, State.pins]

theorem accepts_offered_nil (s : State) : (offered [] s).accepts = false := rfl

/-- What an edge leaves of the words offered (R81). -/
def leftOver (s : State) (ws : List CmdWord) : List CmdWord := if s.bufValid then ws else ws.tail

theorem leftOver_nil (s : State) : leftOver s [] = [] := by simp [leftOver]

/-- An empty buffer takes the front word (R81). -/
theorem tick_upstream {s : State} (hl : s.cfg.legal = true) (k : Nat) (ws : List CmdWord) :
    (upstream s k ws).tick = some (upstream (stepState (offered ws s)) (k + 1) (leftOver s ws)) := by
  rw [tick_eq (b := upstream s k ws) hl, driven_upstream]
  cases ws with
  | nil => rw [accepts_offered_nil, leftOver_nil]; rfl
  | cons w ws => rw [accepts_offered_cons, leftOver]; cases s.bufValid <;> rfl

/-! ## Stretches of the bench's line -/

/-- The bench goes on from where `m` cycles have brought it. -/
theorem bench_add {m : Nat} {b b' : Bench} (h : Bench.run m b = some b') (n : Nat) :
    Bench.run (m + n) b = Bench.run n b' ∧ Bench.trace (m + n) b = Bench.trace m b ++ Bench.trace n b' := by
  induction m generalizing b with
  | zero =>
    obtain rfl : b = b' := Option.some.inj h
    simp [Bench.trace]
  | succ m ih =>
    rw [Nat.succ_add]
    cases ht : b.tick with
    | none => simp [Bench.run, ht] at h
    | some c =>
      simp only [Bench.run, ht] at h
      obtain ⟨hrun, htrace⟩ := ih h
      simp [Bench.run, Bench.trace, ht, hrun, htrace]

/-- From `b` on the line has the levels `w` and no frame is reported, and then the bench is `b'`. -/
structure Shows (w : List Bool) (b b' : Bench) : Prop where
  trace : Bench.trace w.length b = w.map fun x => (x, false)
  run : Bench.run w.length b = some b'

theorem shows_nil (b : Bench) : Shows [] b b := ⟨rfl, rfl⟩

theorem shows_tick {b b' : Bench} {x : Bool} (ht : b.tick = some b') (hx : b.block.pinQ = x)
    (hd : b.block.doneQ = false) : Shows [x] b b' where
  trace := by simp [Bench.trace, ht, State.doutO, State.doneO, hx, hd]
  run := by simp [Bench.run, ht]

theorem Shows.append {w w' : List Bool} {b b' c : Bench} (h : Shows w b b') (h' : Shows w' b' c) :
    Shows (w ++ w') b c := by
  obtain ⟨hrun, htrace⟩ := bench_add h.run w'.length
  constructor
  · rw [List.length_append, htrace, h.trace, h'.trace, List.map_append]
  · rw [List.length_append, hrun, h'.run]

/-! ## Between two consumptions -/

/-- The words not yet consumed: the one in the buffer and those still offered. -/
def waiting (s : State) (ws : List CmdWord) : List CmdWord := pendingWords s ++ ws

theorem waiting_of_full {s : State} (hv : s.bufValid = true) (ws : List CmdWord) : waiting s ws = s.bufWord :: ws := by
  simp [waiting, pendingWords, hv]

theorem waiting_of_empty {s : State} (hv : s.bufValid = false) (ws : List CmdWord) : waiting s ws = ws := by
  simp [waiting, pendingWords, hv]

theorem accepted_append_leftOver (s : State) (ws : List CmdWord) :
    (if (offered ws s).accepts then [(offered ws s).pins.inData] else []) ++ leftOver s ws = ws := by
  cases ws with
  | nil => rw [accepts_offered_nil, leftOver_nil]; rfl
  | cons w ws => rw [accepts_offered_cons, leftOver]; cases s.bufValid <;> rfl

/-- An edge that consumes nothing keeps the words in order (R52). -/
theorem waiting_stepState {s : State} (ws : List CmdWord) (hc : (offered ws s).context = none) :
    waiting (stepState (offered ws s)) (leftOver s ws) = waiting s ws := by
  have kept := pendingWords_stepState (offered_rst ws s)
  simp only [State.consumesNow, hc, Option.isSome_none, Bool.and_false] at kept
  rw [waiting, ← List.nil_append (pendingWords _)]
  exact (congrArg (· ++ leftOver s ws) kept.symm).trans
    ((List.append_assoc ..).trans (congrArg (pendingWords s ++ ·) (accepted_append_leftOver s ws)))

/-- No word is offered to an empty buffer. -/
def Fed (s : State) (ws : List CmdWord) : Prop := s.bufValid = true ∨ ws = []

theorem fed_stepState {s : State} (ws : List CmdWord) (hc : (offered ws s).context = none) :
    Fed (stepState (offered ws s)) (leftOver s ws) := by
  unfold Fed
  rw [stepState_bufValid (offered_rst ws s), hc]
  cases ws with
  | nil => exact .inr (leftOver_nil s)
  | cons w ws => rw [accepts_offered_cons]; cases hv : s.bufValid <;> simp [offered, withEnv, hv]

/-- From `s` with `ws` to be accepted, the bench comes in `m` cycles to `s'` with `ws'`: it consumes nothing and reports
no frame, and its block goes where it goes without the upstream. -/
structure Follows (m : Nat) (s : State) (ws : List CmdWord) (s' : State) (ws' : List CmdWord) : Prop where
  shows (k : Nat) : Shows (lineTrace m (alone s)) (upstream s k ws) (upstream s' (k + m) ws')
  alone : alone s' = stepStates m (alone s)
  abort : s'.abort = s.abort
  doneQ : s'.doneQ = false
  waiting : waiting s' ws' = waiting s ws
  fed : 0 < m ∨ Fed s ws → Fed s' ws'

theorem Follows.cfg {m : Nat} {s s' : State} {ws ws' : List CmdWord} (h : Follows m s ws s' ws') : s'.cfg = s.cfg :=
  (congrArg State.cfg h.alone).trans (stepStates_cfg m _)

/-- Induction on the cycles: each edge of the bench is that of the block without its upstream. -/
theorem follows (m : Nat) : ∀ {s : State} (ws : List CmdWord), s.cfg.legal = true → s.doneQ = false →
    (stepStates m (alone s)).fwState ≠ .idle → ∃ s' ws', Follows m s ws s' ws' := by
  induction m with
  | zero =>
    intro s ws _ hd _
    exact ⟨s, ws, fun _ => shows_nil _, rfl, rfl, hd, rfl, fun h => h.resolve_left (by decide)⟩
  | succ m ih =>
    intro s ws hl hd hbusy
    rw [stepStates, ← alone_stepState_alone] at hbusy
    have hbusy' : (stepState (alone s)).fwState ≠ .idle := fun hf => hbusy (stepStates_alone_of_idle _ m hf)
    have hc : (offered ws s).context = none := (offered_context ws s).trans (alone_context_of_busy hbusy')
    obtain ⟨habort, hdone⟩ := stepState_alone_of_busy hbusy'
    have hstep : alone (stepState (offered ws s)) = stepState (alone s) :=
      alone_stepState (offered_rst ws s) (offered_padFails ws s) hc
    rw [← hstep] at habort hdone
    rw [alone_stepState_alone, ← hstep] at hbusy
    have hl' : (stepState (offered ws s)).cfg.legal = true := (congrArg Config.legal (stepState_cfg _)).trans hl
    obtain ⟨s', ws', rest⟩ := ih (leftOver s ws) hl' hdone hbusy
    refine ⟨s', ws', fun k => ?_, ?_, rest.abort.trans habort, rest.doneQ,
      rest.waiting.trans (waiting_stepState ws hc), fun _ => rest.fed (.inr (fed_stepState ws hc))⟩
    · have line : lineTrace (m + 1) (alone s) = [s.pinQ] ++ lineTrace m (alone (stepState (offered ws s))) := by
        rw [hstep]
        exact lineTrace_succ (s := alone s) hl m
      rw [line, ← Nat.succ_add_eq_add_succ]
      exact (shows_tick (tick_upstream hl k ws) rfl hd).append (rest.shows (k + 1))
    · rw [rest.alone, hstep, stepStates]

theorem Fed.bufValid {s : State} {w : CmdWord} {ws ws' : List CmdWord} (h : Fed s ws)
    (hw : waiting s ws = w :: ws') : s.bufValid = true := by
  rcases h with h | rfl
  · exact h
  · by_contra hv
    rw [waiting_of_empty (by simpa using hv)] at hw
    cases hw

/-! ## A consumption on the bench -/

/-- The latch period of a frame that did not fail, with `n` cycles left and no word buffered. -/
structure Latching (n : Nat) (s : State) : Prop where
  legal : s.cfg.legal = true
  fwState : s.fwState = .latch
  latCnt : s.latCnt = n
  inFrame : s.inFrame = false
  abort : s.abort = false
  pinQ : s.pinQ = false
  doneQ : s.doneQ = false
  bufValid : s.bufValid = false

/-- The next edge consumes a word, if one is buffered; the line is low. -/
structure AtConsumption (s : State) : Prop where
  legal : s.cfg.legal = true
  context : (alone s).context.isSome = true
  abort : s.abort = false
  pinQ : s.pinQ = false
  doneQ : s.doneQ = false

section Consumption

variable {s : State} (h : AtConsumption s) (hv : s.bufValid = true) (ws : List CmdWord)
include h

theorem AtConsumption.consumable :
    (InIdle (offered ws s) ∧ (offered ws s).abort = false) ∨ AtColourEnd (offered ws s) := by
  have hc : (offered ws s).context.isSome = true := by rw [offered_context, h.context]
  exact (consumable_iff.2 hc).imp_left fun hi => ⟨hi, h.abort⟩

include hv

/-- The word leaves the buffer, and none is accepted at that edge (R81, R82). -/
theorem AtConsumption.shows_tick (k : Nat) :
    Shows [false] (upstream s k ws) (upstream (stepState (offered ws s)) (k + 1) ws) := by
  have ht := tick_upstream h.legal k ws
  rw [leftOver, if_pos hv] at ht
  exact Machine.shows_tick ht h.pinQ h.doneQ

/-- The edge is the command's effect. -/
theorem AtConsumption.effect : ∃ c, stepState (offered ws s) =
    nextCycle (effectOf (decode s.bufWord) c (clearResult (offered ws s))) := by
  obtain ⟨c, hc⟩ := Option.isSome_iff_exists.1 (consumable_iff.1 ((h.consumable ws).imp_left And.left))
  exact ⟨c, stepState_of_context (s := offered ws s) hv hc⟩

/-- What the consumption of any command leaves. -/
theorem AtConsumption.leaves : (stepState (offered ws s)).bufValid = false ∧
    (stepState (offered ws s)).abort = false ∧ (stepState (offered ws s)).doneQ = false := by
  obtain ⟨c, hstep⟩ := h.effect hv ws
  obtain ⟨-, -, -, hd, -, ha⟩ := effectOf_frame (decode s.bufWord) c (clearResult (offered ws s))
  rw [hstep]
  exact ⟨effectOf_bufValid _ _ _, ha.trans h.abort, hd⟩

/-- COLOR starts its green byte (R84). -/
theorem AtConsumption.color {g r b : Byte} (hw : s.bufWord = encode (.color g r b)) :
    ByteStart (g ++ r ++ b) .green (stepState (offered ws s)) :=
  byteStart_of_color (s := offered ws s) hv hw (h.consumable ws)

/-- END starts the latch period (R85). -/
theorem AtConsumption.endFrame {x : BitVec 24} (hw : s.bufWord = encode (.endFrame x)) :
    Latching s.cfg.trstCyc (stepState (offered ws s)) := by
  obtain ⟨c, hstep⟩ := h.effect hv ws
  rw [hstep, hw, decode_encode]
  exact ⟨h.legal, rfl, rfl, rfl, h.abort, h.pinQ, rfl, rfl⟩

end Consumption

/-! ## A frame on the bench (R94, R95) -/

theorem length_wave {w : Nat} (c : Config) (v : BitVec w) : (wave c v).length = waveCycles c v := by
  rw [wave, waveCycles, List.length_flatMap]
  exact congrArg List.sum (List.map_congr_left fun b _ => by simp [bitWave, bitCycles])

/-- The line of a frame from its first bit to its last latch cycle (R95). -/
def frameLine (c : Config) (cs : List (Byte × Byte × Byte)) : List Bool :=
  cs.flatMap (fun p => wave c (colourBits p)) ++ List.replicate c.trstCyc false

theorem frameLine_cons (c : Config) (p : Byte × Byte × Byte) (cs : List (Byte × Byte × Byte)) :
    frameLine c (p :: cs) = wave c (colourBits p) ++ frameLine c cs := by simp [frameLine]

theorem length_frameLine (c : Config) (cs : List (Byte × Byte × Byte)) :
    (frameLine c cs).length = frameCycles c cs + c.trstCyc := by
  simp [frameLine, frameCycles, List.length_flatMap, length_wave]

theorem frameWords_cons (p : Byte × Byte × Byte) (cs : List (Byte × Byte × Byte)) :
    frameWords (p :: cs) = encode (.color p.1 p.2.1 p.2.2) :: frameWords cs := rfl

theorem exists_frameWords_eq_cons (cs : List (Byte × Byte × Byte)) : ∃ w ws, frameWords cs = w :: ws := by
  cases cs <;> exact ⟨_, _, rfl⟩

/-- A colour's bits, without the upstream, to the cycle whose edge may consume the next word. -/
theorem colour_line {s : State} {g r b : Byte} (hs : ByteStart (g ++ r ++ b) .green s) (hl : s.cfg.legal = true) :
    ∃ m, 0 < m ∧ wave s.cfg (g ++ r ++ b) = lineTrace m (alone s) ++ [false] ∧
      ByteEnd (g ++ r ++ b) .blue (stepStates m (alone s)) := by
  have hstart : ByteStart (g ++ r ++ b) .green (alone s) := { hs with }
  obtain ⟨t, colour, hend⟩ := colour_emits hstart hl (alone_undisturbed _ s)
  obtain ⟨m, hm⟩ := Nat.exists_eq_add_of_le' colour.pos
  have htrace := colour.trace
  have hlast := colour.last
  rw [hm, Nat.add_sub_cancel] at hlast
  rw [hm, lineTrace_succ' (s := alone s) hl, hlast, hend.pinQ] at htrace
  refine ⟨m, Nat.pos_of_ne_zero ?_, htrace.symm, hlast ▸ hend⟩
  rintro rfl
  cases hstart.btPhase.symm.trans (hlast ▸ hend.btPhase)

theorem AtConsumption.of_byteEnd {s : State} {c : Colour} (hl : s.cfg.legal = true) (ha : s.abort = false)
    (hd : s.doneQ = false) (hend : ByteEnd c .blue (alone s)) : AtConsumption s := by
  have hcnt := hend.btCnt
  have hleft := hend.bsLeft
  have hcontext : (alone s).context = some .atColourEnd := context_eq_atColourEnd.2
    ⟨rfl, hend.fwState, alone_padFails s, hend.btPhase, by omega, by omega, hend.byteIdx⟩
  exact ⟨hl, by rw [hcontext]; rfl, ha, hend.pinQ, hd⟩

/-- A colour on the bench: while its bits are sent, the next word is taken into the buffer. -/
theorem shows_colour {s : State} {g r b : Byte} (hs : ByteStart (g ++ r ++ b) .green s) (hl : s.cfg.legal = true)
    (hd : s.doneQ = false) (ha : s.abort = false) (hv : s.bufValid = false) (k : Nat) (w : CmdWord)
    (ws : List CmdWord) :
    ∃ bits s' k', wave s.cfg (g ++ r ++ b) = bits ++ [false] ∧
      Shows bits (upstream s k (w :: ws)) (upstream s' k' ws) ∧ AtConsumption s' ∧ s'.bufValid = true ∧
      s'.bufWord = w ∧ s'.cfg = s.cfg := by
  obtain ⟨m, hpos, hbits, hend⟩ := colour_line hs hl
  obtain ⟨s', ws', h⟩ := follows m (w :: ws) hl hd (by rw [hend.fwState]; decide)
  rw [← h.alone] at hend
  have hwait := h.waiting.trans (waiting_of_empty hv _)
  have hfull := (h.fed (.inl hpos)).bufValid hwait
  rw [waiting_of_full hfull] at hwait
  obtain ⟨hword, rfl⟩ := List.cons.inj hwait
  have hnext : AtConsumption s' := .of_byteEnd (h.cfg ▸ hl) (h.abort.trans ha) h.doneQ hend
  exact ⟨_, s', _, hbits, h.shows k, hnext, hfull, hword, h.cfg⟩

/-- The cycle of `done_o` of a frame that did not fail, every word accepted. -/
def FrameReported (b : Bench) : Prop :=
  b.offers = [] ∧ b.block.doneO = true ∧ b.block.frameErrO = false ∧ b.block.busyO = false ∧ b.block.doutO = false

/-- The last cycle of the period, whose edge reports the frame (R90). -/
theorem Latching.shows_last {s : State} (h : Latching 1 s) (k : Nat) :
    ∃ b, Shows [false] (upstream s k []) b ∧ FrameReported b := by
  have hone := h.latCnt
  obtain ⟨hidle, hdone, hferr, hpin, -, hopen⟩ :=
    endLatch_edge (s := offered [] s) h.fwState rfl (hone.trans_lt (by decide))
  have hempty : (stepState (offered [] s)).bufValid = false := by
    rw [stepState_bufValid (offered_rst [] s), accepts_offered_nil]
    simp [offered, withEnv, h.bufValid]
  refine ⟨_, shows_tick (tick_upstream h.legal k []) h.pinQ h.doneQ, by rw [leftOver_nil]; rfl, hdone,
    hferr.trans h.abort, ?_, hpin.trans h.pinQ⟩
  simp [upstream, State.busyO, hidle, hopen.trans h.inFrame, hempty]

/-- The period up to its last cycle (R89). -/
theorem Latching.shows_counting {n : Nat} {s : State} (h : Latching (n + 1) s) (k : Nat) :
    ∃ s', Shows (List.replicate n false) (upstream s k []) (upstream s' (k + n) []) ∧ Latching 1 s' := by
  have hcnt : (alone s).latCnt = n + 1 := h.latCnt
  have within (j : Nat) (hj : j ≤ n) : LatchAfter j (alone s) (stepStates j (alone s)) :=
    latch_run (s := alone s) h.fwState (alone_noReset _ s) j (by omega)
  have last := within n le_rfl
  obtain ⟨s', ws', f⟩ := follows n [] h.legal h.doneQ (by rw [last.fwState]; decide)
  rw [← f.alone] at last
  have hline : lineTrace n (alone s) = List.replicate n false :=
    lineTrace_eq_replicate h.legal fun j hj => (within j hj.le).pinQ.trans h.pinQ
  obtain ⟨hpending, rfl⟩ := List.append_eq_nil_iff.1 (f.waiting.trans (waiting_of_empty h.bufValid []))
  refine ⟨s', hline ▸ f.shows k, ?_, last.fwState, ?_, last.inFrame.trans h.inFrame, f.abort.trans h.abort,
    last.pinQ.trans h.pinQ, f.doneQ, ?_⟩
  · rw [f.cfg, h.legal]
  · exact last.latCnt.trans (by rw [hcnt, Nat.add_sub_cancel_left])
  · by_contra hv
    simp [pendingWords, hv] at hpending

/-- The whole period, with no word left to accept. -/
theorem Latching.shows {n : Nat} {s : State} (h : Latching n s) (hn : 1 ≤ n) (k : Nat) :
    ∃ b, Shows (List.replicate n false) (upstream s k []) b ∧ FrameReported b := by
  obtain ⟨m, rfl⟩ := Nat.exists_eq_add_of_le' hn
  obtain ⟨s', counting, h'⟩ := h.shows_counting k
  obtain ⟨b, last, hb⟩ := h'.shows_last (k + m)
  exact ⟨b, List.replicate_succ' ▸ counting.append last, hb⟩

/-- From the cycle that consumes its first word, a frame is on the line without a gap. -/
theorem shows_frame (cs : List (Byte × Byte × Byte)) : ∀ {s : State} {ws : List CmdWord} (k : Nat),
    AtConsumption s → s.bufValid = true → s.bufWord :: ws = frameWords cs →
    ∃ b, Shows (false :: frameLine s.cfg cs) (upstream s k ws) b ∧ FrameReported b := by
  induction cs with
  | nil =>
    intro s ws k h hv hw
    obtain ⟨hword, rfl⟩ := List.cons.inj hw
    obtain ⟨-, -, -, -, hpos, -⟩ := s.cfg.legal_iff.1 h.legal
    obtain ⟨b, latch, hb⟩ := (h.endFrame hv [] hword).shows hpos (k + 1)
    exact ⟨b, (h.shows_tick hv [] k).append latch, hb⟩
  | cons p cs ih =>
    intro s ws k h hv hw
    rw [frameWords_cons] at hw
    obtain ⟨hword, rfl⟩ := List.cons.inj hw
    obtain ⟨w, ws, hws⟩ := exists_frameWords_eq_cons cs
    have first := h.shows_tick hv (frameWords cs) k
    have hcfg : (stepState (offered (frameWords cs) s)).cfg = s.cfg := stepState_cfg _
    obtain ⟨hempty, habort, hdone⟩ := h.leaves hv (frameWords cs)
    obtain ⟨bits, s', k', hbits, colour, h', hv', hw', hcfg'⟩ :=
      shows_colour (h.color hv (frameWords cs) hword) (hcfg ▸ h.legal) hdone habort hempty (k + 1) w ws
    obtain ⟨b, rest, hb⟩ := ih k' h' hv' (by rw [hw', hws])
    rw [← hws] at colour
    have line := first.append (colour.append rest)
    rw [hcfg', hcfg] at line
    rw [hcfg] at hbits
    exact ⟨b, by simpa [frameLine_cons, colourBits, hbits] using line, hb⟩

/-- The first edge of a fresh block takes the frame's first word, and the second consumes it (R81, R82). -/
theorem fresh_accepts {s : State} (hl : s.cfg.legal = true) (h : s.fresh) {w : CmdWord} (ws : List CmdWord) (k : Nat) :
    ∃ s', Shows [false] (upstream s k (w :: ws)) (upstream s' (k + 1) ws) ∧ AtConsumption s' ∧ s'.bufValid = true ∧
      s'.bufWord = w ∧ s'.cfg = s.cfg := by
  obtain ⟨hf, -, habort, hv, hline, hdone⟩ := h
  have hstep := stepState_of_idle_empty (s := offered (w :: ws) s) rfl hf hv
  have ht := tick_upstream hl k (w :: ws)
  rw [hstep, leftOver, hv] at ht
  have hidle : (alone (edgeBase (offered (w :: ws) s))).context = some .inIdle := context_idle rfl hf
  exact ⟨_, shows_tick ht hline hdone, ⟨hl, by rw [hidle]; rfl, habort, hline, rfl⟩, Bool.or_true _,
    if_pos ⟨rfl, hv⟩, rfl⟩

/-- Settles O42: one cycle in which the first word is accepted, then the frame from the cycle that consumes it on. -/
theorem frameOnTheWire : Obligations.FrameOnTheWire := by
  intro s cs k hl hfresh
  obtain ⟨w, ws, hws⟩ := exists_frameWords_eq_cons cs
  obtain ⟨s', first, h, hv, hw, hcfg⟩ := fresh_accepts hl hfresh (w := w) ws k
  obtain ⟨b, frame, hb⟩ := shows_frame cs (k + 1) h hv (by rw [hw, hws])
  have all := first.append frame
  rw [hcfg, ← hws] at all
  have hline : [false] ++ (false :: frameLine s.cfg cs) = List.replicate 2 false ++
      cs.flatMap (fun p => wave s.cfg (colourBits p)) ++ List.replicate s.cfg.trstCyc false :=
    (List.append_assoc (List.replicate 2 false) ..).symm
  have hlength : ([false] ++ (false :: frameLine s.cfg cs)).length = 2 + frameCycles s.cfg cs + s.cfg.trstCyc := by
    simp only [List.length_append, List.length_cons, List.length_nil, length_frameLine]
    omega
  rw [frameOffers_eq, ← hline, ← hlength]
  exact ⟨all.trace, b, all.run, hb⟩

end Sys2Proof.Machine

/-! # The pad abort: it lasts until its frame is reported (60_exceptions.md R99, R103, R104) -/

namespace Sys2Proof.Machine

theorem consumeAs_effectOf_abort (i : Instr) (s : State) : (consumeAs (effectOf i) s).abort = s.abort := by
  cases hc : s.context with
  | none => rw [consumeAs_none hc]
  | some c =>
    obtain ⟨-, -, -, -, -, habort⟩ := effectOf_frame i c s
    rw [consumeAs_some hc, habort]

/-- PIN_ABORT sets `abort`, the report of the frame clears it, and no other rule writes it (R29). -/
theorem ruleEffect_abort (r : EdgeRule) (s : State) :
    (ruleEffect r s).abort = (decide (r ≠ .endLatch) && (s.abort || decide (r = .padAbort))) := by
  cases r with
  | consume => simp [ruleEffect, consumeAs_effectOf_abort]
  | _ => simp [ruleEffect]

theorem stepState_abort {s : State} (hr : s.pins.rst = false) :
    (stepState s).abort = (decide (s.edgeRule ≠ .endLatch) && (s.abort || decide (s.edgeRule = .padAbort))) := by
  rw [stepState_of_not_rst hr, nextCycle_abort, ruleEffect_abort, openEdge_abort]

/-- An aborted frame's colours start no bit, so the low line stays low (R84, R99). -/
theorem BlockInv.stepState_lineLow_of_abort {s : State} (h : BlockInv s) (ha : s.abort = true)
    (hr : s.pins.rst = false) : (stepState s).pinQ = false := by
  obtain ⟨-, hf⟩ := h.aborting ha
  have discards : ¬ SendsColour s := fun ⟨_, _, hna, _⟩ => by simp [ha] at hna
  exact (stepState_keepsWire hr hf discards).pinQ.trans (h.lineLow (.inl hf))

/-- Settles O33: the line is low by `stepState_lineLow_of_abort`, and only the rule that ends the latch period clears
`abort`, with the result beside it. -/
theorem abortLastsUntilTheFrameIsReported : Obligations.AbortLastsUntilTheFrameIsReported := by
  intro s t h ha hr hstep
  obtain ⟨-, rfl⟩ := step_next_iff.1 hstep
  refine ⟨h.stepState_lineLow_of_abort ha hr, ?_⟩
  obtain ⟨hdone, herr⟩ := stepState_result s
  have habort := stepState_abort hr
  by_cases hrule : s.edgeRule = .endLatch
  · obtain ⟨hf, hc⟩ := edgeRule_eq_endLatch.1 hrule
    exact .inr ⟨hf, hc, by simp [habort, hrule], by simp [hdone, hr, hrule], by simp [herr, hr, hrule, ha]⟩
  · exact .inl ⟨by simp [habort, hrule, ha], by simp [hdone, hrule]⟩

end Sys2Proof.Machine

/-! # Reset: how long it is held, and the line after it (70_reset_and_hazards.md R110 to R113) -/

namespace Sys2Proof.Machine

/-! ## The length of a reset (R111) -/

theorem stepStates_succ_of_rst {n : Nat} {s : State} (h : (stepStates n s).pins.rst = true) :
    stepStates (n + 1) s = State.resetWith s.cfg (s.env.drop (n + 1)) := by
  rw [stepStates_succ', stepState_of_rst h, stepStates_cfg, stepStates_env, List.tail_drop]

/-- Settles O11: the last of the reset edges restores every register, whatever the ones before it left. -/
theorem heldResetChangesNothingMore : Obligations.HeldResetChangesNothingMore := by
  intro n s hl hlen hrst
  have hlast : (stepStates n s).pins.rst = true := by
    rw [stepStates_pins, List.getElem?_eq_getElem hlen]
    exact hrst _ (List.mem_take_iff_getElem.2 ⟨n, by omega, rfl⟩)
  rw [run_eq hl, stepStates_succ_of_rst hlast]

/-! ## The line after a reset (R113) -/

theorem effectOf_inIdle_fwState_ne_send {i : Instr} {s : State} (hi : ∀ g r b, i ≠ .color g r b)
    (hf : s.fwState ≠ .send) : (effectOf i .inIdle s).fwState ≠ .send := by
  cases i with
  | color g r b => exact absurd rfl (hi g r b)
  | endFrame _ => simp [effectOf, endEffect]
  | rsvd2 _ | rsvd3 _ => simpa [effectOf, rejectWord] using hf

/-- SEND is entered only by an edge that consumes a COLOR (R84). -/
theorem stepState_fwState_ne_send {s : State} (hf : s.fwState ≠ .send)
    (h : s.consumesNow = true → opField s.bufWord ≠ 0b00#2) : (stepState s).fwState ≠ .send := by
  cases hr : s.pins.rst with
  | true => simp [stepState_of_rst hr]
  | false =>
    cases hs : s.fwState with
    | send => exact absurd hs hf
    | idle =>
      cases hv : s.bufValid with
      | false => simp [stepState_of_idle_empty hr hs hv, hs]
      | true =>
        have hc := context_idle hr hs
        have notColor (g r b : Byte) (hi : decode s.bufWord = .color g r b) : False :=
          h (by simp [State.consumesNow, hv, hc]) (by rw [← decode_op, hi]; rfl)
        rw [stepState_of_context hv hc]
        exact effectOf_inIdle_fwState_ne_send notColor hf
    | latch =>
      rw [stepState_of_not_rst hr, edgeRule_latch hs]
      split <;> simp [ruleEffect, hs]

/-- The invariant keeps the line low outside SEND, and without a COLOR the block stays there. -/
theorem BlockInv.lineTrace_low (n : Nat) : ∀ {s : State}, BlockInv s → s.cfg.legal = true → s.fwState ≠ .send →
    (∀ w ∈ consumedWords n s, opField w ≠ 0b00#2) → lineTrace (n + 1) s = List.replicate (n + 1) false := by
  induction n with
  | zero =>
    intro s h hl hf _
    rw [lineTrace_succ hl, h.lineLow (.inl hf)]
    rfl
  | succ n ih =>
    intro s h hl hf hw
    rw [consumedWords_succ hl] at hw
    have hf' : (stepState s).fwState ≠ .send :=
      stepState_fwState_ne_send hf fun hc => hw _ (List.mem_append_left _ (by simp [hc]))
    have later := ih (blockInv_stepState h hl) (by simpa using hl) hf' fun w hm => hw w (List.mem_append_right _ hm)
    rw [lineTrace_succ hl, h.lineLow (.inl hf), later, ← List.replicate_succ]

/-- Settles O13: the reset state meets the invariant and is in IDLE. -/
theorem lineIsLowUntilAColorIsConsumed : Obligations.LineIsLowUntilAColorIsConsumed :=
  fun n c e hl hw => (blockInv_resetWith c e).lineTrace_low n hl (by simp) hw

end Sys2Proof.Machine
